-- ==== Sys2Proof/Word.lean ====
section
/-! DEFINITION. Word types of the block and their plainest arithmetic (spec/00_scope.md R11,
R12). -/

namespace Sys2Proof

/-- A snapshot, a logical byte, a mask: 8 bits, bit 7 most significant (R11). -/
abbrev Byte := BitVec 8

/-- A command word: 16 bits, bit 15 most significant (R81). -/
abbrev Word := BitVec 16

/-- `LEN`, `IDX`, `COUNT`: 3-bit registers (R20). -/
abbrev Cnt := BitVec 3

/-- A bus target address, `ADDR_W` = 7 bits (R8, R52). -/
abbrev Addr := BitVec 7

/-- An abort code (R30). The block only copies it and compares it with `ABORT_NONE`, and its
width `ABORT_W` is a parameter (R8), so it is a number below `2 ^ ABORT_W`, not a bit vector
of one fixed width (log 14). -/
abbrev AbortCode := Nat

end Sys2Proof
end

