-- ==== Sys2Proof/Config.lean ====
section
/-! DEFINITION. The implementation parameters of spec/00_scope.md R8, with the spec's default
values, and the free values behind the four polls (R15, R213 f). -/

namespace Sys2Proof

/-- Positions of the three control bits in the port byte: `RS_MASK`, `EN_MASK`, `BL_MASK`
(R8, OPEN). -/
structure Masks where
  rs : Byte
  en : Byte
  bl : Byte
deriving DecidableEq, Repr

/-- The parameters of R8 that the block reads. `T_RISE_WAIT_US` is derived from `T_RISE_NS`
and `T_GRAN_US`, and `ABORT_NONE` is the constant `Config.abortNone`. -/
structure Params where
  masks : Masks
  /-- `ABORT_W`, width of an abort code. -/
  abortW : Nat
  /-- `T_LATCH_US`, settle time after each triplet, microseconds. -/
  tLatchUs : Nat
  /-- `T_RISE_NS`, settle time after every other byte, nanoseconds. -/
  tRiseNs : Nat
  /-- `T_GRAN_US`, smallest delay the timer driver can wait, microseconds. -/
  tGranUs : Nat
  /-- `ENABLE_TOGGLE`. -/
  enableToggle : Bool
deriving DecidableEq, Repr

namespace Config

/-- `ABORT_NONE`, the abort code that means no abort (R8). -/
def abortNone : AbortCode := 0

/-- The one location of the port space (R50). `PORT` has no address (R51); key 0 stands for it
(DESIGN CHOICE, log 9). -/
def portKey : Nat := 0

/-- The defaults of R8, the values spec/95_test_vectors.md uses (log 2). -/
def defaultParams : Params where
  masks := { rs := 0x01, en := 0x04, bl := 0x08 }
  abortW := 32
  tLatchUs := 37
  tRiseNs := 450
  tGranUs := 1
  enableToggle := false

/-- Free value: the answer of `PollReady()` when it is poll number n (R213 f; log 1). -/
opaque pollReady : Nat → Bool

/-- Free value: the answer of `PollQEmpty()` when it is poll number n (R213 f; log 1). -/
opaque pollQEmpty : Nat → Bool

/-- Free value: the answer of `PollBusy()` when it is poll number n (R213 f; log 1). -/
opaque pollBusy : Nat → Bool

/-- Free value: the answer of `PollAbort()` when it is poll number n (R213 f; log 1). -/
opaque pollAbort : Nat → AbortCode

end Config

end Sys2Proof
end

