-- ==== Sys2Proof/Syntax.lean ====
section
/-! DEFINITION. The commands of the block: one constructor per row of spec/opcode_table.json
(spec/30_encoding.md R82, R83). -/

namespace Sys2Proof

/-- The register selector `RS`: which register of the display controller the logical byte is
for (R18, R82). -/
inductive RegSel where
  /-- `RS` = 0. -/
  | instruction
  /-- `RS` = 1. -/
  | data
deriving DecidableEq, Repr

/-- A command (R83). -/
inductive Instr where
  /-- Encode `byte` in EightBit mode and send it; `more` leaves the frame open (R107). -/
  | xfer8 (more : Bool) (rs : RegSel) (byte : Byte)
  /-- Encode `byte` in FourBit mode and send it; `more` leaves the frame open (R108). -/
  | xfer4 (more : Bool) (rs : RegSel) (byte : Byte)
  /-- Send `byte` as it stands, as a frame of its own (R139). -/
  | raw (byte : Byte)
  /-- Write the backlight latch (R160). -/
  | setbl (v : Bool)
deriving DecidableEq, Repr

end Sys2Proof
end

