-- ==== Sys2Proof/WellFormed.lean ====
section
/-! DEFINITION. Well-formedness checks: of the parameters (spec/00_scope.md R9, which "the model
must check of its arguments") and of commands. -/

namespace Sys2Proof

/-- Exactly one bit of `m` is set. -/
def oneBit (m : Byte) : Bool := m != 0 && (m &&& (m - 1)) == 0

/-- R9, first clause: each mask has exactly one bit set. -/
def Masks.single (m : Masks) : Bool := oneBit m.rs && oneBit m.en && oneBit m.bl

/-- R9, second clause: the masks are pairwise different. -/
def Masks.distinct (m : Masks) : Bool := m.rs != m.en && m.rs != m.bl && m.en != m.bl

/-- R9, third clause: all masks lie in the low nibble. -/
def Masks.lowNibble (m : Masks) : Bool := ((m.rs ||| m.en ||| m.bl) &&& 0xF0) == 0

/-- The mask constraint of R9. -/
def Masks.wf (m : Masks) : Bool := m.single && m.distinct && m.lowNibble

/-- The parameters are admitted: the mask constraint of R9, and a delay granularity that is not
zero, without which `T_RISE_NS` has no multiple to be rounded up to (DEDUCED from R8, log 11). -/
def Params.wf (p : Params) : Bool := p.masks.wf && decide (0 < p.tGranUs)

/-- Every command of `Instr` is well-formed: its operands have their widths by type, and "every
`BYTE`, `RS`, `MORE` and `V` is legal" (R204). What a state refuses (RAW in HELD, R164) is a
matter of execution. -/
def Instr.wf : Instr → Bool
  | .xfer8 _ _ _ => true
  | .xfer4 _ _ _ => true
  | .raw _ => true
  | .setbl _ => true

end Sys2Proof
end

