-- ==== Sys2Proof/Decode.lean ====
section
/-! DEFINITION. The decoder of command words (spec/30_encoding.md R84, R91) and the encoder
(R81, R83, R94). A command is one 16-bit value at the command port (R80), so no byte order
enters (log 17). -/

namespace Sys2Proof

/-- Why a word is reserved: the four classes of R91. -/
inductive Reserved where
  /-- `OP` = 0 or `OP` in 5 to 15. -/
  | badOp
  /-- `OP` in 1, 2 and a one in bits 11:10. -/
  | z2NotZero
  /-- `OP` = 3 and a one in bits 11:8. -/
  | z4NotZero
  /-- `OP` = 4 and a one in bits 11:1. -/
  | z11NotZero
deriving DecidableEq, Repr

/-- `BYTE` = `w[7:0]` (R84). -/
def byteField (w : Word) : Byte := w.extractLsb' 0 8

/-- `RS` = `w[8]`: 0 is Instruction, 1 is Data (R82). -/
def rsField (w : Word) : RegSel := if w.getLsbD 8 then .data else .instruction

/-- `MORE` = `w[9]` (R82). -/
def moreField (w : Word) : Bool := w.getLsbD 9

/-- `V` = `w[0]` (R82). -/
def vField (w : Word) : Bool := w.getLsbD 0

/-- `OP` = `w[15:12]` (R82). -/
def opField (w : Word) : BitVec 4 := w.extractLsb' 12 4

/-- The class of R91 of a word that no test of R84 matches, read from `OP`. -/
def reservedClass (w : Word) : Reserved :=
  match (opField w).toNat with
  | 1 => .z2NotZero
  | 2 => .z2NotZero
  | 3 => .z4NotZero
  | 4 => .z11NotZero
  | _ => .badOp

/-- The decoder: the four mutually exclusive tests of R84, reserved otherwise. Total on every
one of the 65536 words. -/
def decode (w : Word) : Except Reserved Instr :=
  if w &&& 0xFC00 = 0x1000 then .ok (.xfer8 (moreField w) (rsField w) (byteField w))
  else if w &&& 0xFC00 = 0x2000 then .ok (.xfer4 (moreField w) (rsField w) (byteField w))
  else if w &&& 0xFF00 = 0x3000 then .ok (.raw (byteField w))
  else if w &&& 0xFFFE = 0x4000 then .ok (.setbl (vField w))
  else .error (reservedClass w)

/-- The `RS` bit of a register selector (R82). -/
def RegSel.bit : RegSel → BitVec 1
  | .instruction => 0
  | .data => 1

/-- The field value `v` placed with its least significant bit at bit `lo` of a word. -/
def fieldAt {n : Nat} (lo : Nat) (v : BitVec n) : Word := v.setWidth 16 <<< lo

/-- Format X (R81): `OP` 15:12, zero 11:10, `MORE` 9, `RS` 8, `BYTE` 7:0. -/
def formatX (op : BitVec 4) (more : Bool) (rs : RegSel) (byte : Byte) : Word :=
  fieldAt 12 op ||| fieldAt 9 (BitVec.ofBool more) ||| fieldAt 8 rs.bit ||| fieldAt 0 byte

/-- The encoder: formats X, R and B with the opcodes of the map (R81, R83). -/
def encode : Instr → Word
  | .xfer8 more rs byte => formatX 0b0001 more rs byte
  | .xfer4 more rs byte => formatX 0b0010 more rs byte
  | .raw byte => fieldAt 12 (0b0011 : BitVec 4) ||| fieldAt 0 byte
  | .setbl v => fieldAt 12 (0b0100 : BitVec 4) ||| fieldAt 0 (BitVec.ofBool v)

/-- The instruction the decoder reads from a word of the opcode table's numbering (bit 0 least
significant). A command has 16 bits; bits above `nbits` are 0, and a longer row names no
command. -/
def decodeTableWord (nbits w : Nat) : Option Instr :=
  if nbits ≤ 16 then
    match decode (BitVec.ofNat 16 (w % 2 ^ nbits)) with
    | .ok i => some i
    | .error _ => none
  else none

end Sys2Proof
end

