-- ==== Sys2Proof/Machine/State.lean ====
section
/-! DEFINITION. The state of the block (spec/10_state.md R20 to R37), its inputs, the record of
its events (spec/00_scope.md R15), the reasons a step can stop, and the state after reset. -/

namespace Sys2Proof.Machine

/-- `PH`, the phase of the transfer state machine (R24). -/
inductive Phase where
  /-- No frame is open; nothing in progress. -/
  | idle
  /-- Prologue: select the target inside the critical section. -/
  | addr
  /-- Polling `PollReady()` before writing `FRAME[IDX]`. -/
  | rdy
  /-- Writing `FRAME[IDX]`. -/
  | wr
  /-- Waiting the settle time that follows the write. -/
  | settle
  /-- Sampling the abort reason after the wait. -/
  | chk
  /-- A frame is open and the next command continues it. -/
  | held
  /-- Polling `PollQEmpty()` after the last byte of a frame. -/
  | drainQ
  /-- Polling `PollBusy()` after the queue is empty. -/
  | drainB
  /-- Sampling the abort reason after the drain. -/
  | chkF
deriving DecidableEq, Repr

/-- `ST`, the status of the last response (R28); the code 3 is never produced. -/
inductive Status where
  | ok
  | busAbort
  | illegal
deriving DecidableEq, Repr

/-- The frame buffer `FRAME[0..5]` (R21). -/
structure Frame where
  f0 : Byte
  f1 : Byte
  f2 : Byte
  f3 : Byte
  f4 : Byte
  f5 : Byte
deriving DecidableEq, Repr

/-- An event of the block's trace (R15), or a wait of the host (R95). -/
inductive Event where
  /-- `PollReady()` answered. -/
  | pollReady (answer : Bool)
  /-- `BusWrite(v, stop)`. -/
  | busWrite (v : Byte) (stop : Bool)
  /-- `PollBusy()` answered. -/
  | pollBusy (answer : Bool)
  /-- `PollQEmpty()` answered. -/
  | pollQEmpty (answer : Bool)
  /-- `PollAbort()` answered. -/
  | pollAbort (code : AbortCode)
  /-- `ClearAbort()`. -/
  | clearAbort
  /-- `SetTarget(a)`. -/
  | setTarget (a : Addr)
  /-- `BusEnable()`. -/
  | busEnable
  /-- `BusDisable()`. -/
  | busDisable
  /-- `Wait(us)`, made by the block. -/
  | wait (us : Nat)
  /-- `CritEnter()`. -/
  | critEnter
  /-- `CritExit()`. -/
  | critExit
  /-- `Respond(st, n, r)` (R85). -/
  | respond (st : Status) (n : Cnt) (r : AbortCode)
  /-- The host's `.wait us` (R95), not an event of the block (log 7). -/
  | hostWait (us : Nat)
deriving DecidableEq, Repr

/-- What the host does next: present a word at the command port (R80), or wait (R95). -/
inductive HostAct where
  | present (w : Word)
  | wait (us : Nat)
deriving DecidableEq, Repr

/-- The inputs of the environment (R33), the model's own fields: what the host will do, the
samples of `rst`, and the next answers of the four polls. Where a list of answers is used up,
the answer is a free value of Config applied to `polls` (log 1, 5, 6). -/
structure Inputs where
  /-- The host's actions still to come, next first. -/
  host : List HostAct
  /-- The samples of the `rst` input, one a step, next first; none left is not asserted. -/
  rst : List Bool
  /-- The next answers of `PollReady()`. -/
  ready : List Bool
  /-- The next answers of `PollQEmpty()`. -/
  qEmpty : List Bool
  /-- The next answers of `PollBusy()`. -/
  busy : List Bool
  /-- The next answers of `PollAbort()`. -/
  abort : List AbortCode
  /-- How many polls have been made. -/
  polls : Nat
deriving DecidableEq, Repr

/-- The port space as cells, addresses strictly rising (R50; log 9). -/
abbrev Memory := List Host.Cell

/-- The state. The first ten fields are the elements of R20; `par` holds the parameters of R8,
`mem` the port space of R50, `inp` the environment's inputs and `trace` the events made so far,
newest first. -/
structure State where
  /-- `FRAME[0..5]`. -/
  frame : Frame
  /-- `LEN`. -/
  len : Cnt
  /-- `IDX`. -/
  idx : Cnt
  /-- `PH`. -/
  ph : Phase
  /-- `MORE`. -/
  more : Bool
  /-- `BL`. -/
  bl : Bool
  /-- `ST`. -/
  st : Status
  /-- `COUNT`. -/
  count : Cnt
  /-- `REASON`. -/
  reason : AbortCode
  /-- `TARGET_ADDR`. -/
  targetAddr : Addr
  par : Params
  mem : Memory
  inp : Inputs
  trace : List Event
deriving DecidableEq, Repr

/-- Why the machine stops with a fault. Both are raised by `step` in states that no run from
reset reaches (R37, S4), where the spec gives no transition (log 12). -/
inductive Fault where
  /-- Phase WR with `IDX` 6 or 7: there is no such element of `FRAME` (R21). Safe. -/
  | noSuchSnapshot
  /-- Phase CHK with a clean abort sample and `IDX + 1 > LEN`: "No other transition exists"
  (R137). Safe. -/
  | noTransition
deriving DecidableEq, Repr

/-- Why the model gives no meaning. -/
inductive Refusal where
  /-- Raised by an arm of `exec` for a command without a meaning; no arm does. Safe. -/
  | notModelled (mnemonic : String)
  /-- Raised by `step` when the parameters break the constraint of R9: "the model should reject
  such arguments" (spec/93_implementation_defined.md S11). Safe. -/
  | badParameters
deriving DecidableEq, Repr

/-- The named reset value of `FRAME`, which R36 leaves unspecified (DESIGN CHOICE, log 3). -/
def Frame.zero : Frame := { f0 := 0, f1 := 0, f2 := 0, f3 := 0, f4 := 0, f5 := 0 }

/-- No input yet (DESIGN CHOICE, log 1, 5, 6). -/
def Inputs.none : Inputs where
  host := []
  rst := []
  ready := []
  qEmpty := []
  busy := []
  abort := []
  polls := 0

/-- The machine right after reset (R36, R230), with the spec's default parameters (R8; log 2),
`TARGET_ADDR` 0 (DESIGN CHOICE, log 4) and nothing in the environment. -/
def State.reset : State where
  frame := Frame.zero
  len := 0
  idx := 0
  ph := .idle
  more := false
  bl := false
  st := .ok
  count := 0
  reason := Config.abortNone
  targetAddr := 0
  par := Config.defaultParams
  mem := []
  inp := Inputs.none
  trace := []

end Sys2Proof.Machine
end

