-- ==== Sys2Proof/Machine/Flags.lean ====
section
/-! DEFINITION. Status and phase codes, readiness of the command port, the stop flag and the
settle time (spec/10_state.md R24, R28; spec/41_transfer_engine.md R127, R131). -/

namespace Sys2Proof.Machine

/-- The numeric code of a phase (R24). -/
def Phase.code : Phase → BitVec 4
  | .idle => 0
  | .addr => 1
  | .rdy => 2
  | .wr => 3
  | .settle => 4
  | .chk => 5
  | .held => 6
  | .drainQ => 7
  | .drainB => 8
  | .chkF => 9

/-- The numeric code of a status (R28, R85). -/
def Status.code : Status → BitVec 2
  | .ok => 0
  | .busAbort => 1
  | .illegal => 2

/-- The command port is ready exactly in IDLE and HELD (R24, R80; `cmd_ready` of R93). -/
def Phase.ready : Phase → Bool
  | .idle => true
  | .held => true
  | _ => false

/-- `IDX = LEN - 1`: the next snapshot is the last of its command. -/
def State.lastByte (s : State) : Bool := s.idx.toNat + 1 == s.len.toNat

/-- The stop flag of the write with this state: set on the last snapshot of a command with
`MORE = 0`, and on no other (R131). -/
def State.stopFlag (s : State) : Bool := s.lastByte && !s.more

/-- `T_RISE_WAIT_US`: `T_RISE_NS` rounded up to a multiple of `T_GRAN_US` (R8, R127); a
granularity of g microseconds is 1000 g nanoseconds (DEDUCED, log 24). -/
def riseWaitUs (p : Params) : Nat :=
  (p.tRiseNs + 1000 * p.tGranUs - 1) / (1000 * p.tGranUs) * p.tGranUs

/-- The settle time after the snapshot with index `i` of its command: the long one after the
third of a triplet, the short one after every other (R127). -/
def settleUs (p : Params) (i : Nat) : Nat :=
  if i % 3 = 2 then p.tLatchUs else riseWaitUs p

end Sys2Proof.Machine
end

