-- ==== Sys2Proof/Machine/Operands.lean ====
section
/-! DEFINITION. The encoding functions of the frame builder (spec/40_encoder.md R100 to R105):
from the operands of a command to its snapshots. They read their arguments and the three masks
and nothing else (R104 i). -/

namespace Sys2Proof.Machine

/-- `ctl(rs, bl)`, the control bits (R100). -/
def ctl (m : Masks) (rs : RegSel) (bl : Bool) : Byte :=
  (if rs = .data then m.rs else 0) ||| (if bl then m.bl else 0)

/-- `tri(v)`: the value with the enable bit cleared, set, cleared (R101). -/
def tri (m : Masks) (v : Byte) : List Byte :=
  [v &&& ~~~m.en, v ||| m.en, v &&& ~~~m.en]

/-- The nibble of `b` that goes out first, in the top four bits (R54). -/
def highNibble (b : Byte) : Byte := b &&& 0xF0#8

/-- The nibble of `b` that goes out second, in the top four bits: `(b << 4) & 0xF0` (R54). -/
def lowNibble (b : Byte) : Byte := (b <<< 4) &&& 0xF0#8

/-- `enc8(b, rs, bl)`, EightBit encoding (R102). -/
def enc8 (m : Masks) (b : Byte) (rs : RegSel) (bl : Bool) : List Byte :=
  tri m (b ||| ctl m rs bl)

/-- `enc4(b, rs, bl)`, FourBit encoding (R103). -/
def enc4 (m : Masks) (b : Byte) (rs : RegSel) (bl : Bool) : List Byte :=
  tri m (highNibble b ||| ctl m rs bl) ++ tri m (lowNibble b ||| ctl m rs bl)

/-- The raw frame: the byte as given (R89). -/
def encRaw (b : Byte) : List Byte := [b]

/-- `UNUSED_MASK`, the low-nibble bit no mask claims (R9). -/
def unusedMask (m : Masks) : Byte := 0x0F &&& ~~~(m.rs ||| m.en ||| m.bl)

/-- `decode4(F)`: the top four bits at each of the two falling edges of enable (R105). -/
def decode4 (f : List Byte) : Byte :=
  (f.getD 1 0 &&& 0xF0#8) ||| ((f.getD 4 0 &&& 0xF0#8) >>> 4)

/-- `decode8(F)`: what reaches the four wired data lines (R105). -/
def decode8 (f : List Byte) : Byte := f.getD 1 0 &&& 0xF0#8

/-- The snapshots a command hands to the transfer engine, given the masks and the backlight latch
at its accept (R107, R108, R139); SETBL has none. -/
def snapshots (m : Masks) (bl : Bool) : Instr → List Byte
  | .xfer8 _ rs byte => enc8 m byte rs bl
  | .xfer4 _ rs byte => enc4 m byte rs bl
  | .raw byte => encRaw byte
  | .setbl _ => []

/-- The MORE field of a command (R82); RAW has none and counts as 0 (R25). -/
def moreOf : Instr → Bool
  | .xfer8 more _ _ => more
  | .xfer4 more _ _ => more
  | .raw _ => false
  | .setbl _ => false

end Sys2Proof.Machine
end

