-- ==== Sys2Proof/Machine/Ops.lean ====
section
/-! DEFINITION. The named operations over the state: the frame buffer, the port space, the event
record, the four polls, the response, and the two exits `raise Illegal` (spec/42_control.md R163)
and `raise BusAbort` (spec/41_transfer_engine.md R136). -/

namespace Sys2Proof.Machine

/-! ## The frame buffer (R21) -/

/-- `FRAME[i]`; there are six elements. -/
def Frame.get? (f : Frame) : Nat → Option Byte
  | 0 => some f.f0
  | 1 => some f.f1
  | 2 => some f.f2
  | 3 => some f.f3
  | 4 => some f.f4
  | 5 => some f.f5
  | _ => none

/-- Write the snapshots `bs` to `FRAME[0]` onwards. Elements past their end keep what an earlier
command left there (R21). -/
def Frame.load (f : Frame) (bs : List Byte) : Frame where
  f0 := bs.getD 0 f.f0
  f1 := bs.getD 1 f.f1
  f2 := bs.getD 2 f.f2
  f3 := bs.getD 3 f.f3
  f4 := bs.getD 4 f.f4
  f5 := bs.getD 5 f.f5

/-! ## The port space (R50, R51) -/

/-- The byte at address `a`; an address nothing has written holds no value (log 9). -/
def Memory.read (m : Memory) (a : Nat) : Option Byte :=
  match m with
  | [] => none
  | c :: rest => if c.1 = a then some c.2 else Memory.read rest a

/-- Write one byte, keeping the addresses strictly rising. -/
def Memory.write (m : Memory) (a : Nat) (v : Byte) : Memory :=
  match m with
  | [] => [(a, v)]
  | c :: rest =>
    if a < c.1 then (a, v) :: c :: rest
    else if a = c.1 then (a, v) :: rest
    else c :: Memory.write rest a v

/-- Addresses strictly rising. -/
def Memory.rising : Memory → Bool
  | [] => true
  | [_] => true
  | c :: d :: rest => decide (c.1 < d.1) && Memory.rising (d :: rest)

/-- The canonical form: addresses strictly rising, and the one location `PORT` is the only
address (R50). No cell can equal what an unlisted address reads as, since that is no value. -/
def Memory.wf (m : Memory) : Bool := Memory.rising m && m.all fun c => c.1 == Config.portKey

/-! ## Events (R15) -/

/-- Record one event. -/
def State.emit (s : State) (e : Event) : State := { s with trace := e :: s.trace }

/-- Record events in the order given. -/
def State.emitAll (s : State) (es : List Event) : State := { s with trace := es.reverse ++ s.trace }

/-- The event `BusWrite(v, stop)`: the byte goes to `PORT`, and its stop flag with it (R51,
R60). -/
def State.busWrite (s : State) (v : Byte) (stop : Bool) : State :=
  { s with mem := s.mem.write Config.portKey v, trace := .busWrite v stop :: s.trace }

/-- The events of the prologue, in order (R123). -/
def prologueEvents (p : Params) (a : Addr) : List Event :=
  [.critEnter] ++ (if p.enableToggle then [.busDisable] else []) ++ [.setTarget a] ++
    (if p.enableToggle then [.busEnable] else []) ++ [.critExit]

/-! ## The polls (R15): the answer the environment gives next, and the state after the poll -/

/-- The answer the next `PollReady()` gets. -/
def State.readyAnswer (s : State) : Bool := s.inp.ready.headD (Config.pollReady s.inp.polls)

/-- `PollReady()`. -/
def State.pollReady (s : State) : State :=
  { s with
    inp := { s.inp with ready := s.inp.ready.tail, polls := s.inp.polls + 1 }
    trace := .pollReady s.readyAnswer :: s.trace }

/-- The answer the next `PollQEmpty()` gets. -/
def State.qEmptyAnswer (s : State) : Bool := s.inp.qEmpty.headD (Config.pollQEmpty s.inp.polls)

/-- `PollQEmpty()`. -/
def State.pollQEmpty (s : State) : State :=
  { s with
    inp := { s.inp with qEmpty := s.inp.qEmpty.tail, polls := s.inp.polls + 1 }
    trace := .pollQEmpty s.qEmptyAnswer :: s.trace }

/-- The answer the next `PollBusy()` gets. -/
def State.busyAnswer (s : State) : Bool := s.inp.busy.headD (Config.pollBusy s.inp.polls)

/-- `PollBusy()`. -/
def State.pollBusy (s : State) : State :=
  { s with
    inp := { s.inp with busy := s.inp.busy.tail, polls := s.inp.polls + 1 }
    trace := .pollBusy s.busyAnswer :: s.trace }

/-- The answer the next `PollAbort()` gets, a code of `ABORT_W` bits (R15). -/
def State.abortAnswer (s : State) : AbortCode :=
  s.inp.abort.headD (Config.pollAbort s.inp.polls) % 2 ^ s.par.abortW

/-- `PollAbort()`. -/
def State.pollAbort (s : State) : State :=
  { s with
    inp := { s.inp with abort := s.inp.abort.tail, polls := s.inp.polls + 1 }
    trace := .pollAbort s.abortAnswer :: s.trace }

/-! ## Responses and the two exits -/

/-- `Respond(st, n, r)`, the three values copied into `ST`, `COUNT` and `REASON` (R85). -/
def State.respond (s : State) (st : Status) (n : Cnt) (r : AbortCode) : State :=
  { s with st := st, count := n, reason := r, trace := .respond st n r :: s.trace }

/-- `raise Illegal`: the answer to a word that is refused; `PH` and everything else keep their
values (R163). -/
def State.raiseIllegal (s : State) : State := s.respond .illegal 0 Config.abortNone

/-- `raise BusAbort(a)`, the abort exit: latch the reason and the status, `ClearAbort()`,
`Respond(BUSABORT, COUNT, a)`, to IDLE. `IDX`, `LEN`, `MORE` and `FRAME` are left as they are
(R136). There is no return from it (R211). -/
def State.raiseBusAbort (s : State) (a : AbortCode) : State :=
  { (s.emit .clearAbort).respond .busAbort s.count a with ph := .idle }

/-! ## Accepting a command -/

/-- A command is accepted only when the port is ready; in every other phase "the port is not
ready and the host waits", and nothing is written (R80; log 10). -/
def State.whenReady (s : State) (k : State → Host.Outcome State Fault Refusal) :
    Host.Outcome State Fault Refusal :=
  if s.ph.ready then k s else .next s

/-- The writes at accept of a transferring command whose frame is `bs` (R121, R122): the frame
and its length, `IDX`, `MORE`, the cleared result, and the phase, which is ADDR when the command
opens a frame and RDY when it continues one. -/
def State.startTransfer (s : State) (bs : List Byte) (more : Bool) : State :=
  { s with
    frame := s.frame.load bs
    len := BitVec.ofNat 3 bs.length
    idx := 0
    more := more
    st := .ok
    count := 0
    reason := Config.abortNone
    ph := if s.ph = .idle then .addr else .rdy }

/-- Reset: the block takes the state of R36; it makes no event and touches neither the
parameters, `TARGET_ADDR`, the port space nor the environment (R230, R231). `FRAME` is
unspecified by R36 and takes the named reset value (log 3, 20). -/
def State.resetBlock (s : State) : State :=
  { s with
    frame := Frame.zero
    len := 0
    idx := 0
    ph := .idle
    more := false
    bl := false
    st := .ok
    count := 0
    reason := Config.abortNone }

/-- `rst` is asserted at this step (R230). -/
def State.rstAsserted (s : State) : Bool := s.inp.rst.headD false

/-- The `rst` sample of this step is used up. -/
def State.sampleRst (s : State) : State := { s with inp := { s.inp with rst := s.inp.rst.tail } }

/-- The host's next action is taken from its list. -/
def State.dropHost (s : State) : State := { s with inp := { s.inp with host := s.inp.host.tail } }

end Sys2Proof.Machine
end

