-- ==== Sys2Proof/Machine/Control.lean ====
section
/-! DEFINITION. The meaning of SETBL (spec/42_control.md R160, R161). -/

namespace Sys2Proof.Machine

/-- SETBL (R160): `BL <- V` and the response `(OK, 0, ABORT_NONE)`, with no bus event and `PH`
unchanged; in HELD the open frame stays open (R161). -/
def execSetbl (v : Bool) (s : State) : Host.Outcome State Fault Refusal :=
  s.whenReady fun s => .next ({ s with bl := v }.respond .ok 0 Config.abortNone)

end Sys2Proof.Machine
end

