-- ==== Sys2Proof/Machine/Transfer.lean ====
section
/-! DEFINITION. The meanings of the transferring commands XFER8, XFER4 and RAW at their accept
(spec/40_encoder.md R107, R108; spec/41_transfer_engine.md R139). The transfer that follows is
the phase machine of Machine/Engine.lean. -/

namespace Sys2Proof.Machine

/-- XFER8 (R107): `FRAME[0..2] <- enc8(BYTE, RS, BL)`, `LEN <- 3`, and the transfer starts. -/
def execXfer8 (more : Bool) (rs : RegSel) (byte : Byte) (s : State) :
    Host.Outcome State Fault Refusal :=
  s.whenReady fun s => .next (s.startTransfer (enc8 s.par.masks byte rs s.bl) more)

/-- XFER4 (R108): `FRAME[0..5] <- enc4(BYTE, RS, BL)`, `LEN <- 6`, and the transfer starts. -/
def execXfer4 (more : Bool) (rs : RegSel) (byte : Byte) (s : State) :
    Host.Outcome State Fault Refusal :=
  s.whenReady fun s => .next (s.startTransfer (enc4 s.par.masks byte rs s.bl) more)

/-- RAW (R139): `FRAME[0] <- BYTE`, `LEN <- 1`, `MORE <- 0`, and the transfer starts; `BL` is
not read. In HELD it is answered exactly as a reserved word (R164). -/
def execRaw (byte : Byte) (s : State) : Host.Outcome State Fault Refusal :=
  s.whenReady fun s =>
    if s.ph = .held then .next s.raiseIllegal else .next (s.startTransfer (encRaw byte) false)

end Sys2Proof.Machine
end

