-- ==== Sys2Proof/Machine/Dispatch.lean ====
section
/-! DEFINITION. One arm per command of Instr, each a direct call of its meaning. -/

namespace Sys2Proof.Machine

def exec (i : Instr) (s : State) : Host.Outcome State Fault Refusal :=
  match i with
  | .xfer8 more rs byte => Sys2Proof.Machine.execXfer8 more rs byte s
  | .xfer4 more rs byte => Sys2Proof.Machine.execXfer4 more rs byte s
  | .raw byte => Sys2Proof.Machine.execRaw byte s
  | .setbl v => Sys2Proof.Machine.execSetbl v s

end Sys2Proof.Machine
end

