-- ==== Sys2Proof/Machine/Engine.lean ====
section
/-! DEFINITION. The transition table of spec/41_transfer_engine.md R137: what one step does in
each phase. -/

namespace Sys2Proof.Machine

/-- IDLE or HELD: the host's next action. A presented word is accepted and decoded; a command is
executed and a reserved word refused (R91, R163). During a host wait (R95), and with nothing
presented, the block does nothing (R137). -/
def phaseReady (s : State) : Host.Outcome State Fault Refusal :=
  match s.inp.host with
  | [] => .next s
  | .wait us :: _ => .next (s.dropHost.emit (.hostWait us))
  | .present w :: _ =>
    match decode w with
    | .ok i => exec i s.dropHost
    | .error _ => .next s.dropHost.raiseIllegal

/-- ADDR: the prologue, one indivisible step (R123, R232). -/
def phaseAddr (s : State) : Host.Outcome State Fault Refusal :=
  .next { s.emitAll (prologueEvents s.par s.targetAddr) with ph := .rdy }

/-- RDY: poll until the bus driver is ready (R125). -/
def phaseRdy (s : State) : Host.Outcome State Fault Refusal :=
  .next (if s.readyAnswer then { s.pollReady with ph := .wr } else s.pollReady)

/-- WR: write `FRAME[IDX]` with its stop flag and count it (R126, R131). -/
def phaseWr (s : State) : Host.Outcome State Fault Refusal :=
  match s.frame.get? s.idx.toNat with
  | some v => .next { s.busWrite v s.stopFlag with count := s.count + 1, ph := .settle }
  | none => .fault .noSuchSnapshot

/-- SETTLE: the wait after the write (R127). -/
def phaseSettle (s : State) : Host.Outcome State Fault Refusal :=
  .next { s.emit (.wait (settleUs s.par s.idx.toNat)) with ph := .chk }

/-- CHK after a clean sample: `IDX <- IDX + 1`, then the next byte, the end of a command that
leaves the frame open, or the drain (R128 to R130). -/
def chkClean (s : State) : Host.Outcome State Fault Refusal :=
  if s.idx.toNat + 1 < s.len.toNat then .next { s with idx := s.idx + 1, ph := .rdy }
  else if s.idx.toNat + 1 = s.len.toNat then
    if s.more then
      .next { s.respond .ok s.len Config.abortNone with idx := s.idx + 1, ph := .held }
    else .next { s with idx := s.idx + 1, ph := .drainQ }
  else .fault .noTransition

/-- CHK: one abort sample, before the index is advanced (R128, R209 c). -/
def phaseChk (s : State) : Host.Outcome State Fault Refusal :=
  if s.abortAnswer = Config.abortNone then chkClean s.pollAbort
  else .next (s.pollAbort.raiseBusAbort s.abortAnswer)

/-- DRAINQ: poll until the transmit queue is empty (R132). -/
def phaseDrainQ (s : State) : Host.Outcome State Fault Refusal :=
  .next (if s.qEmptyAnswer then { s.pollQEmpty with ph := .drainB } else s.pollQEmpty)

/-- DRAINB: poll until the bus is not busy (R133). -/
def phaseDrainB (s : State) : Host.Outcome State Fault Refusal :=
  .next (if s.busyAnswer then s.pollBusy else { s.pollBusy with ph := .chkF })

/-- CHKF: the last abort sample, and the successful close (R134, R135). -/
def phaseChkF (s : State) : Host.Outcome State Fault Refusal :=
  if s.abortAnswer = Config.abortNone then
    .next { s.pollAbort.respond .ok s.len Config.abortNone with ph := .idle }
  else .next (s.pollAbort.raiseBusAbort s.abortAnswer)

/-- One row of the transition table (R137). -/
def transition (s : State) : Host.Outcome State Fault Refusal :=
  match s.ph with
  | .idle => phaseReady s
  | .held => phaseReady s
  | .addr => phaseAddr s
  | .rdy => phaseRdy s
  | .wr => phaseWr s
  | .settle => phaseSettle s
  | .chk => phaseChk s
  | .drainQ => phaseDrainQ s
  | .drainB => phaseDrainB s
  | .chkF => phaseChkF s

/-- One step with admitted parameters: reset wins over everything (R209 f, R232); otherwise one
transition. -/
def resetOrTransition (s : State) : Host.Outcome State Fault Refusal :=
  if s.rstAsserted then .next s.sampleRst.resetBlock else transition s.sampleRst

/-- Put the word `w` at the command port as the host's next action, with the port ready and
`rst` not asserted (log 17). -/
def State.presentNext (s : State) (w : Word) : State :=
  { s with
    ph := if s.ph.ready then s.ph else .idle
    inp := { s.inp with host := .present w :: s.inp.host, rst := false :: s.inp.rst } }

end Sys2Proof.Machine
end

