-- ==== Sys2Proof/Machine/Step.lean ====
section
/-! DEFINITION. One step of the machine, and where the host's next word stands. -/

namespace Sys2Proof.Machine

/-- One step: parameters that break R9 are rejected (spec/93_implementation_defined.md S11);
otherwise a reset or one row of the transition table R137. -/
def step (s : State) : Host.Outcome State Fault Refusal :=
  if s.par.wf then resetOrTransition s else .refused .badParameters

/-- `s` with the word `w` presented so that the very next step accepts it. -/
def State.withFetchWord (s : State) (nbits w : Nat) : State :=
  s.presentNext (BitVec.ofNat 16 (w % 2 ^ nbits))

end Sys2Proof.Machine
end

