-- ==== Sys2Proof/Machine/HostSeq.lean ====
section
/-! DEFINITION. The host software around the block, as macros that expand to changes of the host's
attributes, presented words and waits (spec/45_host_sequences.md R170 to R191), and the assembler's rendering of commands
(spec/30_encoding.md R94, R95). None of it is state of the block (spec/10_state.md R33). -/

namespace Sys2Proof.Machine

/-- `entryMode` (R170). -/
inductive EntryMode where
  | increment
  | decrement
deriving DecidableEq, Repr

/-- `shiftMode` (R170). -/
inductive ShiftMode where
  | on
  | off
deriving DecidableEq, Repr

/-- The host constants of R174. -/
structure HostConst where
  func8bitWake : Byte
  funcTo4bit : Byte
  clearCmd : Byte
  ddramCmd : Byte
  rowOffset0 : Nat
  rowOffset1 : Nat
  rowOffset2 : Nat
  rowOffset3 : Nat
  tCmdUs : Nat
  tPowerUs : Nat
  tWakeUs : Nat
  tClearUs : Nat
  displayCmdBase : Byte
  displayOn : Byte
  cursorOn : Byte
  blinkOn : Byte
  entryCmdBase : Byte
  entryInc : Byte
  entryShift : Byte
  funcBase : Byte
  func2Line : Byte
  func5x10 : Byte
  cgramCmd : Byte
  shiftCmd : Byte
  shiftDisplay : Byte
  shiftRight : Byte
  space : Byte
  rawBlOff : Byte
deriving DecidableEq, Repr

/-- The values of R174 (those the spec marks as general knowledge: log 22). -/
def HostConst.table : HostConst where
  func8bitWake := 0x30
  funcTo4bit := 0x20
  clearCmd := 0x01
  ddramCmd := 0x80
  rowOffset0 := 0x00
  rowOffset1 := 0x40
  rowOffset2 := 0x14
  rowOffset3 := 0x54
  tCmdUs := 200
  tPowerUs := 50000
  tWakeUs := 4500
  tClearUs := 2000
  displayCmdBase := 0x08
  displayOn := 0x04
  cursorOn := 0x02
  blinkOn := 0x01
  entryCmdBase := 0x04
  entryInc := 0x02
  entryShift := 0x01
  funcBase := 0x20
  func2Line := 0x08
  func5x10 := 0x04
  cgramCmd := 0x40
  shiftCmd := 0x10
  shiftDisplay := 0x08
  shiftRight := 0x04
  space := 0x20
  rawBlOff := 0x00

/-- The host's configuration (R10) and the starting values of its flags (R170). -/
structure HostConfig where
  const : HostConst
  /-- `LINES`, 1 or 2. -/
  lines : Nat
  /-- `COLS`, carried and read by no formula (N35). -/
  cols : Nat
  /-- `FONT_H`, read only as "10 or not". -/
  fontH : Nat
  entryInit : EntryMode
  shiftInit : ShiftMode
  backlightInit : Bool
  displayInit : Bool
  cursorInit : Bool
  blinkInit : Bool
deriving DecidableEq, Repr

/-- The configuration with the constants of R174 and the defaults of R170 for the four flags:
false, true, false, false. What R10 gives no value is an argument. -/
def HostConfig.default (lines cols fontH : Nat) (entry : EntryMode) (shift : ShiftMode) :
    HostConfig where
  const := HostConst.table
  lines := lines
  cols := cols
  fontH := fontH
  entryInit := entry
  shiftInit := shift
  backlightInit := false
  displayInit := true
  cursorInit := false
  blinkInit := false

/-- `LINES` is 1 or 2 (R10). -/
def HostConfig.linesLegal (c : HostConfig) : Bool := c.lines == 1 || c.lines == 2

/-- `backlight` starts as `BL` does after reset: "both start at 0" (R170; log 27). -/
def HostConfig.startsDark (c : HostConfig) : Bool := c.backlightInit == State.reset.bl

/-- The configuration is admitted. -/
def HostConfig.wf (c : HostConfig) : Bool := c.linesLegal && c.startsDark

/-- The host's DisplayAttributes (R170). -/
structure DisplayAttrs where
  backlight : Bool
  displayOn : Bool
  cursorOn : Bool
  blinkOn : Bool
  entryMode : EntryMode
  shiftMode : ShiftMode
deriving DecidableEq, Repr

/-- The attributes at the start (R170). -/
def DisplayAttrs.start (c : HostConfig) : DisplayAttrs where
  backlight := c.backlightInit
  displayOn := c.displayInit
  cursorOn := c.cursorInit
  blinkOn := c.blinkInit
  entryMode := c.entryInit
  shiftMode := c.shiftInit

/-- A change of one attribute, as a setter makes it (R172). -/
inductive AttrChange where
  | backlight (on : Bool)
  | displayOn (on : Bool)
  | cursorOn (on : Bool)
  | blinkOn (on : Bool)
deriving DecidableEq, Repr

/-- The attributes with the change made. -/
def AttrChange.apply : AttrChange → DisplayAttrs → DisplayAttrs
  | .backlight on, a => { a with backlight := on }
  | .displayOn on, a => { a with displayOn := on }
  | .cursorOn on, a => { a with cursorOn := on }
  | .blinkOn on, a => { a with blinkOn := on }

/-- One line of a macro's expansion: a change of the host's attributes, or an action at the
block. -/
inductive MacroStep where
  | assign (c : AttrChange)
  | act (a : HostAct)
deriving DecidableEq, Repr

/-- A macro's expansion, in order. -/
abbrev Macro := List MacroStep

/-- The actions of a macro that runs to its end. -/
def Macro.acts : Macro → List HostAct
  | [] => []
  | .assign _ :: rest => Macro.acts rest
  | .act x :: rest => x :: Macro.acts rest

/-- The attributes after a macro that runs to its end. -/
def Macro.attrsAfter : Macro → DisplayAttrs → DisplayAttrs
  | [], a => a
  | .assign c :: rest, a => Macro.attrsAfter rest (c.apply a)
  | .act _ :: rest, a => Macro.attrsAfter rest a

/-- `composeDisplayCommand()` (R171). -/
def composeDisplayCommand (k : HostConst) (a : DisplayAttrs) : Byte :=
  k.displayCmdBase ||| (if a.displayOn then k.displayOn else 0) |||
    (if a.cursorOn then k.cursorOn else 0) ||| (if a.blinkOn then k.blinkOn else 0)

/-- `composeEntryModeCommand()` (R173). -/
def composeEntryModeCommand (k : HostConst) (a : DisplayAttrs) : Byte :=
  k.entryCmdBase ||| (if a.entryMode = .increment then k.entryInc else 0) |||
    (if a.shiftMode = .on then k.entryShift else 0)

/-- Issue a command. -/
def issue (i : Instr) : HostAct := .present (encode i)

/-- The line `.wait us` of a macro (R95). -/
def waitStep (us : Nat) : MacroStep := .act (.wait us)

/-- The line of a macro that issues a command. -/
def issueStep (i : Instr) : MacroStep := .act (issue i)

/-- `XFER4 I, b`. -/
def sendCommand (b : Byte) : MacroStep := issueStep (.xfer4 false .instruction b)

/-- `XFER4 D, b`. -/
def sendData (b : Byte) : MacroStep := issueStep (.xfer4 false .data b)

/-- `XFER8 I, b`. -/
def sendWide (b : Byte) : MacroStep := issueStep (.xfer8 false .instruction b)

/-- The composed display command and its mandatory settle wait (R172). -/
def issueDisplay (k : HostConst) (a : DisplayAttrs) : Macro :=
  [sendCommand (composeDisplayCommand k a), waitStep k.tCmdUs]

/-- `setBacklight(on)` (R172), called with attributes `a`. -/
def setBacklight (k : HostConst) (on : Bool) (a : DisplayAttrs) : Macro :=
  [.assign (.backlight on), issueStep (.setbl on)] ++
    issueDisplay k ((AttrChange.backlight on).apply a)

/-- `setDisplay(on)` (R172). -/
def setDisplay (k : HostConst) (on : Bool) (a : DisplayAttrs) : Macro :=
  [.assign (.displayOn on)] ++ issueDisplay k ((AttrChange.displayOn on).apply a)

/-- `setCursor(on)`, the cursor-visible toggle (R172). -/
def setCursorVisible (k : HostConst) (on : Bool) (a : DisplayAttrs) : Macro :=
  [.assign (.cursorOn on)] ++ issueDisplay k ((AttrChange.cursorOn on).apply a)

/-- `setBlink(on)` (R172). -/
def setBlink (k : HostConst) (on : Bool) (a : DisplayAttrs) : Macro :=
  [.assign (.blinkOn on)] ++ issueDisplay k ((AttrChange.blinkOn on).apply a)

/-- `FUNCSET` (R181). -/
def functionSet (c : HostConfig) : Byte :=
  c.const.funcBase ||| (if c.lines = 2 then c.const.func2Line else 0) |||
    (if c.fontH = 10 then c.const.func5x10 else 0)

/-- `init()`, the nine steps of R176 to R184 in order, called with attributes `a`. Step 2 has no
command of its own (R177), and only step 9 changes an attribute (R184). It starts with the block
just out of reset (R175). -/
def initSequence (c : HostConfig) (a : DisplayAttrs) : Macro :=
  let k := c.const
  [waitStep k.tPowerUs] ++
  [issueStep (.raw k.rawBlOff), waitStep k.tCmdUs] ++
  [sendWide k.func8bitWake, waitStep k.tWakeUs, sendWide k.func8bitWake, waitStep k.tWakeUs,
    sendWide k.func8bitWake, waitStep k.tCmdUs] ++
  [sendWide k.funcTo4bit, waitStep k.tCmdUs] ++
  [issueStep (.xfer4 true .instruction (functionSet c)), sendCommand k.displayCmdBase,
    waitStep k.tCmdUs] ++
  [sendCommand k.clearCmd, waitStep k.tClearUs] ++
  [sendCommand (composeEntryModeCommand k a), waitStep k.tCmdUs] ++
  setBacklight k true a

/-- `ROW_OFFSET[r]` (R174). -/
def rowOffset (k : HostConst) : Nat → Nat
  | 0 => k.rowOffset0
  | 1 => k.rowOffset1
  | 2 => k.rowOffset2
  | _ => k.rowOffset3

/-- The row clamp of R186, at `row >= LINES`. -/
def clampRow (c : HostConfig) (row : Nat) : Nat := if row ≥ c.lines then c.lines - 1 else row

/-- The DDRAM address command of `setCursor(col, row)` (R186). -/
def cursorCommand (c : HostConfig) (col row : Nat) : Byte :=
  c.const.ddramCmd ||| BitVec.ofNat 8 ((col + rowOffset c.const (clampRow c row)) % 256)

/-- `setCursor(col, row)` (R186). -/
def setCursorAt (c : HostConfig) (col row : Nat) : Macro :=
  [sendCommand (cursorCommand c col row)]

/-- `print(data, length)` (R187), `length` being the length of `data`. -/
def printBytes (data : List Byte) : Macro := data.map sendData

/-- `clear()` (R188). -/
def clearDisplay (k : HostConst) : Macro := [sendCommand k.clearCmd, waitStep k.tClearUs]

/-- `clearLine(length)` (R189). -/
def clearLine (k : HostConst) (length : Nat) : Macro :=
  List.replicate length (sendData k.space)

/-- The glyph-memory address command of `createChar`: the slot masked to three bits, in bits 5:3
(R190). -/
def glyphCommand (k : HostConst) (slot : Nat) : Byte :=
  k.cgramCmd ||| (BitVec.ofNat 8 (slot % 8) <<< 3)

/-- `createChar(slot, bitmap[8])` (R190). -/
def createChar (k : HostConst) (slot : Nat) (bitmap : Vector Byte 8) : Macro :=
  sendCommand (glyphCommand k slot) :: bitmap.toList.map sendData

/-- `shift` (R191). -/
def shiftDisplay (k : HostConst) (right : Bool) : Macro :=
  [sendCommand (k.shiftCmd ||| k.shiftDisplay ||| (if right then k.shiftRight else 0))]

/-- A command with its MORE field set to `more` (R144); RAW and SETBL have no such field. -/
def withMore (more : Bool) : Instr → Instr
  | .xfer8 _ rs byte => .xfer8 more rs byte
  | .xfer4 _ rs byte => .xfer4 more rs byte
  | .raw byte => .raw byte
  | .setbl v => .setbl v

/-- The commands of one frame: `MORE = 1` on all but the last (R90, R144). -/
def burst : List Instr → List Instr
  | [] => []
  | [c] => [withMore false c]
  | c :: d :: rest => withMore true c :: burst (d :: rest)

/-! ## Assembler rendering (R94, R95), `imm8` in decimal -/

/-- `I` or `D`. -/
def asmRegSel : RegSel → String
  | .instruction => "I"
  | .data => "D"

/-- A command in the syntax of R94. -/
def asmInstr : Instr → String
  | .xfer8 more rs byte =>
    "XFER8 " ++ asmRegSel rs ++ ", " ++ toString byte.toNat ++ (if more then ", MORE" else "")
  | .xfer4 more rs byte =>
    "XFER4 " ++ asmRegSel rs ++ ", " ++ toString byte.toNat ++ (if more then ", MORE" else "")
  | .raw byte => "RAW " ++ toString byte.toNat
  | .setbl v => "SETBL " ++ (if v then "1" else "0")

end Sys2Proof.Machine
end

