-- ==== Sys2Proof/Machine/HostRun.lean ====
section
/-! DEFINITION. The host driving the block: issue one action, run `step` until it is answered,
and stop at the first response that is not OK (spec/45_host_sequences.md R185, R192;
spec/41_transfer_engine.md R144). A command may never be answered (spec/60_exceptions.md R205),
so each wait for an answer takes `fuel`, the most steps it makes. -/

namespace Sys2Proof.Machine

/-- A response `(st, n, r)` (R85). -/
structure Response where
  st : Status
  n : Cnt
  r : AbortCode
deriving DecidableEq, Repr

/-- The response the block made between `s` and `t`, one step later: every transition that
responds makes it its last event (R137). -/
def newResponse (s t : State) : Option Response :=
  if s.trace.length < t.trace.length then
    match t.trace with
    | .respond st n r :: _ => some { st := st, n := n, r := r }
    | _ => none
  else none

/-- Run until the next response. -/
def toResponse : Nat → State → Option (Response × State)
  | 0, _ => none
  | fuel + 1, s =>
    match step s with
    | .next t =>
      match newResponse s t with
      | some r => some (r, t)
      | none => toResponse fuel t
    | .fault _ => none
    | .refused _ => none

/-- Run until the command port is ready: the state itself if it is ready. -/
def toReady : Nat → State → Option State
  | 0, s => if s.ph.ready then some s else none
  | fuel + 1, s =>
    if s.ph.ready then some s
    else
      match step s with
      | .next t => toReady fuel t
      | .fault _ => none
      | .refused _ => none

/-- Run until the host's list is used up, that is, until its wait is over. -/
def toHostDone : Nat → State → Option State
  | 0, s => if s.inp.host = [] then some s else none
  | fuel + 1, s =>
    if s.inp.host = [] then some s
    else
      match step s with
      | .next t => toHostDone fuel t
      | .fault _ => none
      | .refused _ => none

/-- The host does `a` and nothing else. -/
def State.hostDoes (s : State) (a : HostAct) : State := { s with inp := { s.inp with host := [a] } }

/-- How a macro ended: the response it stopped at and reports, or none when every response was
OK; the host's attributes; the machine. -/
structure MacroEnd where
  stoppedAt : Option Response
  attrs : DisplayAttrs
  machine : State
deriving DecidableEq, Repr

/-- Run a macro with attributes `a`, line by line. At the first response that is not OK it ends:
nothing further is issued, nothing is retried, and the attribute changes already made stay made,
while those of later lines are not made (R192). -/
def runMacro (fuel : Nat) : Macro → DisplayAttrs → State → Option MacroEnd
  | [], a, s => some { stoppedAt := none, attrs := a, machine := s }
  | .assign c :: rest, a, s => runMacro fuel rest (c.apply a) s
  | .act (.wait us) :: rest, a, s =>
    match toHostDone fuel (s.hostDoes (.wait us)) with
    | none => none
    | some t => runMacro fuel rest a t
  | .act (.present w) :: rest, a, s =>
    match toResponse fuel (s.hostDoes (.present w)) with
    | none => none
    | some (r, t) =>
      if r.st = .ok then runMacro fuel rest a t
      else some { stoppedAt := some r, attrs := a, machine := t }

/-- Issue the commands in turn, stopping at the first response that is not OK, and add up the
`n` fields of the responses received. -/
def sumCounts (fuel : Nat) : List Instr → State → Option (Nat × State)
  | [], s => some (0, s)
  | i :: rest, s =>
    match toResponse fuel (s.hostDoes (issue i)) with
    | none => none
    | some (r, t) =>
      if r.st = .ok then
        match sumCounts fuel rest t with
        | none => none
        | some (n, u) => some (r.n.toNat + n, u)
      else some (r.n.toNat, t)

/-- The document's `send(bytes) -> bytesWritten` for a frame of the given commands (R144). -/
def hostSend (fuel : Nat) (cs : List Instr) (s : State) : Option (Nat × State) :=
  sumCounts fuel (burst cs) s

end Sys2Proof.Machine
end

