-- ==== Sys2Proof/Machine/Procedure.lean ====
section
/-! DEFINITION. The transfer engine as the sequential procedure of spec/41_transfer_engine.md
R138. Its three poll loops are unbounded (R205), so each takes `fuel`, the most polls it makes;
`none` means that the fuel ran out. "Where the table of rule R137 and this procedure differ, the
table governs": `step` follows the table, and nothing calls this file's definitions. -/

namespace Sys2Proof.Machine

/-- `repeat r = PollReady() until r`. -/
def untilReady : Nat → State → Option State
  | 0, _ => none
  | fuel + 1, s => if s.readyAnswer then some s.pollReady else untilReady fuel s.pollReady

/-- `repeat q = PollQEmpty() until q`. -/
def untilQEmpty : Nat → State → Option State
  | 0, _ => none
  | fuel + 1, s => if s.qEmptyAnswer then some s.pollQEmpty else untilQEmpty fuel s.pollQEmpty

/-- `repeat b = PollBusy() until not b`. -/
def untilBusIdle : Nat → State → Option State
  | 0, _ => none
  | fuel + 1, s => if s.busyAnswer then untilBusIdle fuel s.pollBusy else some s.pollBusy

/-- The body of the byte loop up to its wait: poll, write and count, wait. -/
def writeByte (fuel : Nat) (s : State) : Option State :=
  match untilReady fuel s with
  | none => none
  | some t =>
    match t.frame.get? t.idx.toNat with
    | none => none
    | some v =>
      some ({ t.busWrite v t.stopFlag with count := t.count + 1 }.emit
        (.wait (settleUs t.par t.idx.toNat)))

/-- The byte loop, at most `n` snapshots. The flag says that the loop ended in the abort exit. -/
def byteLoop (fuel : Nat) : Nat → State → Option (State × Bool)
  | 0, s => some (s, false)
  | n + 1, s =>
    if s.idx.toNat < s.len.toNat then
      match writeByte fuel s with
      | none => none
      | some t =>
        if t.abortAnswer = Config.abortNone then
          byteLoop fuel n { t.pollAbort with idx := t.idx + 1 }
        else some (t.pollAbort.raiseBusAbort t.abortAnswer, true)
    else some (s, false)

/-- What follows the byte loop: leave the frame open, or drain, sample once more and close. -/
def finish (fuel : Nat) (s : State) : Option State :=
  if s.more then some { s.respond .ok s.len Config.abortNone with ph := .held }
  else
    match untilQEmpty fuel s with
    | none => none
    | some t =>
      match untilBusIdle fuel t with
      | none => none
      | some u =>
        if u.abortAnswer = Config.abortNone then
          some { u.pollAbort.respond .ok u.len Config.abortNone with ph := .idle }
        else some (u.pollAbort.raiseBusAbort u.abortAnswer)

/-- `transfer(opened_here)`, for a command whose frame has been built at accept. -/
def transfer (fuel : Nat) (openedHere : Bool) (s : State) : Option State :=
  let s := if openedHere then s.emitAll (prologueEvents s.par s.targetAddr) else s
  match byteLoop fuel s.len.toNat s with
  | none => none
  | some (t, true) => some t
  | some (t, false) => finish fuel t

end Sys2Proof.Machine
end

