-- ==== Sys2Proof/Safety.lean ====
section
/-! DEFINITION. What counts as a safe run: the invariant of spec/10_state.md R37, the bus
discipline of spec/20_memory.md R64 as a monitor over the trace, the shape of clean and aborted
traces (spec/41_transfer_engine.md R140, R141), and what a sequence of snapshots clocks into the
display (spec/20_memory.md R61, spec/40_encoder.md R111). -/

namespace Sys2Proof.Safety

open Sys2Proof.Machine

/-! ## Terms of the claims -/

/-- The parameters are admitted (R9) and `rst` is not asserted at this step. -/
abbrev Running (s : State) : Prop := s.par.wf = true ∧ s.rstAsserted = false

/-- The command port is ready (R24, R80). -/
abbrev PortReady (s : State) : Prop := s.ph = .idle ∨ s.ph = .held

/-- `k` steps of the machine. -/
abbrev runs (k : Nat) (s : State) : Host.Outcome State Fault Refusal :=
  Host.Core.run Sys2Proof.core k s

/-- Every word a list of host actions presents is a command (R193). -/
abbrev NoReserved (acts : List HostAct) : Prop :=
  ∀ w, HostAct.present w ∈ acts → ∃ i, decode w = .ok i

/-- No word a list of host actions presents is RAW. -/
abbrev NoRaw (acts : List HostAct) : Prop :=
  ∀ w b, HostAct.present w ∈ acts → decode w ≠ .ok (.raw b)

/-- The block's `BL` mirrors the host's `backlight` (R170). -/
abbrev Mirrored (a : DisplayAttrs) (s : State) : Prop := a.backlight = s.bl

/-- Every macro of R172 to R191, called with attributes `a`. -/
def allMacros (c : HostConfig) (a : DisplayAttrs) (on : Bool) (col row slot len : Nat)
    (data : List Byte) (bitmap : Vector Byte 8) : List Macro :=
  let k := c.const
  [initSequence c a, setBacklight k on a, setDisplay k on a, setCursorVisible k on a,
    setBlink k on a, setCursorAt c col row, printBytes data, clearDisplay k, clearLine k len,
    createChar k slot bitmap, shiftDisplay k on]

/-! ## The state invariant (R37) -/

/-- R37 (a): the legal values of `LEN`. -/
abbrev LenLegal (s : State) : Prop := s.len = 0 ∨ s.len = 1 ∨ s.len = 3 ∨ s.len = 6

/-- The phases of the byte loop and the prologue before it, in which a snapshot is still to be
finished. -/
abbrev InBytes (p : Phase) : Prop :=
  p = .addr ∨ p = .rdy ∨ p = .wr ∨ p = .settle ∨ p = .chk

/-- The phases of the drain. -/
abbrev InDrain (p : Phase) : Prop := p = .drainQ ∨ p = .drainB ∨ p = .chkF

/-- R37 (b), and (c) for every phase in which a snapshot is still to be finished. -/
abbrev IdxBounded (s : State) : Prop :=
  s.idx.toNat ≤ s.len.toNat ∧ (InBytes s.ph → s.idx.toNat < s.len.toNat)

/-- R37 (d). -/
abbrev CountTracksIdx (s : State) : Prop :=
  (s.ph = .addr ∨ s.ph = .rdy ∨ s.ph = .wr → s.count = s.idx) ∧
  (s.ph = .settle ∨ s.ph = .chk → s.count.toNat = s.idx.toNat + 1) ∧
  (InDrain s.ph → s.count = s.idx ∧ s.idx = s.len)

/-- R37 (e): in HELD the last transferring command had `MORE = 1` and ran to its end. -/
abbrev HeldIsOpen (s : State) : Prop := s.ph = .held → s.more = true ∧ s.idx = s.len ∧ s.len ≠ 0

/-- R37 (f) and (g). -/
abbrev MoreLegal (s : State) : Prop :=
  (InDrain s.ph → s.more = false) ∧ (s.len = 1 → s.more = false)

/-- R37 (h), and `ST` and `REASON` of a command in progress (R121). -/
abbrev ResultLegal (s : State) : Prop :=
  (s.st = .busAbort → s.reason ≠ Config.abortNone) ∧
  (s.st ≠ .busAbort → s.reason = Config.abortNone) ∧
  (¬ s.ph.ready → s.st = .ok)

/-- R37 (i): in an encoded frame the enable bit is cleared, set, cleared. -/
abbrev EnableShape (s : State) : Prop :=
  let en := s.par.masks.en
  (s.len = 3 ∨ s.len = 6 →
    s.frame.f0 &&& en = 0 ∧ s.frame.f1 &&& en = en ∧ s.frame.f2 &&& en = 0) ∧
  (s.len = 6 →
    s.frame.f3 &&& en = 0 ∧ s.frame.f4 &&& en = en ∧ s.frame.f5 &&& en = 0)

/-- `REASON` fits its register of `ABORT_W` bits (R30). -/
abbrev ReasonFits (s : State) : Prop := s.reason < 2 ^ s.par.abortW

/-- The invariant of R37. -/
abbrev StateInv (s : State) : Prop :=
  LenLegal s ∧ IdxBounded s ∧ CountTracksIdx s ∧ HeldIsOpen s ∧ MoreLegal s ∧ ResultLegal s ∧
    EnableShape s ∧ ReasonFits s

/-! ## The bus discipline (R64), a monitor over the trace -/

/-- What the monitor remembers of the events so far. -/
structure Monitor where
  /-- Inside a critical section. -/
  crit : Bool
  /-- The frame's prologue selected the target (R64 e). -/
  targeted : Bool
  /-- `PollReady()` answered true since the previous write (R64 b). -/
  ready : Bool
  /-- The settle wait of R127 for the previous write has been made (R64 c). -/
  waited : Bool
  /-- Writes made in this frame. -/
  written : Nat
  /-- The last write carried the stop flag. -/
  stopped : Bool
  /-- `PollQEmpty()` answered true (R64 d). -/
  qEmpty : Bool
  /-- Then `PollBusy()` answered false (R64 d). -/
  drained : Bool
  /-- The last abort sample was not `ABORT_NONE`. -/
  aborted : Bool
  /-- `ClearAbort()` has followed it. -/
  cleared : Bool
  /-- A rule has been broken. -/
  broken : Bool
deriving DecidableEq, Repr

/-- Nothing has happened. -/
def Monitor.start : Monitor where
  crit := false
  targeted := false
  ready := false
  waited := false
  written := 0
  stopped := false
  qEmpty := false
  drained := false
  aborted := false
  cleared := false
  broken := false

/-- The monitor sees one event. A frame starts at `CritEnter()`. -/
def Monitor.see (p : Params) (target : Addr) (m : Monitor) : Event → Monitor
  | .critEnter => { Monitor.start with crit := true, broken := m.broken || m.crit }
  | .critExit => { m with crit := false, broken := m.broken || !m.crit }
  | .setTarget a =>
    { m with targeted := a == target, waited := true, broken := m.broken || !m.crit }
  | .busEnable => { m with broken := m.broken || !m.crit || !p.enableToggle }
  | .busDisable => { m with broken := m.broken || !m.crit || !p.enableToggle }
  | .pollReady answer => { m with ready := answer, broken := m.broken || m.crit }
  | .busWrite _ stop =>
    { m with
      ready := false
      waited := false
      written := m.written + 1
      stopped := stop
      qEmpty := false
      drained := false
      broken := m.broken || m.crit || m.stopped || !(m.targeted && m.ready && m.waited) }
  | .wait us =>
    { m with waited := us == settleUs p (m.written - 1), broken := m.broken || m.written == 0 }
  | .pollQEmpty answer => { m with qEmpty := answer, broken := m.broken || !m.stopped }
  | .pollBusy answer => { m with drained := !answer, broken := m.broken || !m.qEmpty }
  | .pollAbort code => { m with aborted := code != Config.abortNone }
  | .clearAbort => { m with cleared := true, broken := m.broken || !m.aborted }
  | .respond st n _ =>
    { m with
      broken := m.broken || m.crit ||
        match st with
        | .ok => n != 0 && m.stopped && !m.drained
        | .busAbort => !m.cleared
        | .illegal => n != 0 }
  | .hostWait _ => m

/-- The monitor after a trace, newest event first. -/
def observe (p : Params) (target : Addr) : List Event → Monitor
  | [] => Monitor.start
  | e :: es => (observe p target es).see p target e

/-- What the monitor must remember in each phase for the frame in progress to go on within the
rules. -/
abbrev MonitorFits (s : State) (m : Monitor) : Prop :=
  (s.ph = .addr → s.idx = 0) ∧
  (s.ph = .rdy ∨ s.ph = .wr →
    m.targeted = true ∧ m.waited = true ∧ m.stopped = false ∧
      m.written % 3 = s.idx.toNat % 3) ∧
  (s.ph = .wr → m.ready = true) ∧
  (s.ph = .settle ∨ s.ph = .chk →
    m.targeted = true ∧ m.stopped = s.stopFlag ∧ 0 < m.written ∧
      (m.written - 1) % 3 = s.idx.toNat % 3) ∧
  (s.ph = .chk → m.waited = true) ∧
  (s.ph = .held →
    m.targeted = true ∧ m.waited = true ∧ m.stopped = false ∧ m.written % 3 = 0) ∧
  (s.ph = .drainQ ∨ s.ph = .drainB → m.stopped = true) ∧
  (s.ph = .drainB → m.qEmpty = true) ∧
  (s.ph = .chkF → m.drained = true)

/-- The monitor after the state's own trace. -/
def watch (s : State) : Monitor := observe s.par s.targetAddr s.trace

/-- The trace breaks no rule of the bus discipline, and the frame in progress can go on within
them. -/
abbrev Disciplined (s : State) : Prop :=
  (watch s).broken = false ∧ (watch s).crit = false ∧ MonitorFits s (watch s)

/-! ## Clean and aborted traces (R140, R141), oldest event first -/

/-- The events of one snapshot that meets no abort and no unfavourable poll. -/
def byteEvents (p : Params) (i : Nat) (v : Byte) (stop : Bool) (code : AbortCode) : List Event :=
  [.pollReady true, .busWrite v stop, .wait (settleUs p i), .pollAbort code]

/-- The events of the snapshots `bs` from index `i` on, of a command of `n` snapshots. -/
def bytesEvents (p : Params) (more : Bool) (n : Nat) : Nat → List Byte → List Event
  | _, [] => []
  | i, v :: vs =>
    byteEvents p i v (i + 1 == n && !more) Config.abortNone ++ bytesEvents p more n (i + 1) vs

/-- The end of a clean command of `n` snapshots: the response, after the drain if it closes the
frame. -/
def endEvents (more : Bool) (n : Nat) : List Event :=
  (if more then [] else [.pollQEmpty true, .pollBusy false, .pollAbort Config.abortNone]) ++
    [.respond .ok (BitVec.ofNat 3 n) Config.abortNone]

/-- The whole trace of a clean command with snapshots `bs`. -/
def cleanTrace (p : Params) (target : Addr) (opened more : Bool) (bs : List Byte) : List Event :=
  (if opened then prologueEvents p target else []) ++
    bytesEvents p more bs.length 0 bs ++ endEvents more bs.length

/-- The whole trace of a command whose sample after snapshot `k`, of value `v`, answers `code`. -/
def abortedTrace (p : Params) (target : Addr) (opened more : Bool) (bs : List Byte) (k : Nat)
    (v : Byte) (code : AbortCode) : List Event :=
  (if opened then prologueEvents p target else []) ++
    bytesEvents p more bs.length 0 (bs.take k) ++
    byteEvents p k v (k + 1 == bs.length && !more) code ++
    [.clearAbort, .respond .busAbort (BitVec.ofNat 3 (k + 1)) code]

/-- The whole trace of a command that closes its frame and whose sample after the drain answers
`code`. -/
def lateAbortTrace (p : Params) (target : Addr) (opened : Bool) (bs : List Byte)
    (code : AbortCode) : List Event :=
  (if opened then prologueEvents p target else []) ++
    bytesEvents p false bs.length 0 bs ++
    [.pollQEmpty true, .pollBusy false, .pollAbort code, .clearAbort,
      .respond .busAbort (BitVec.ofNat 3 bs.length) code]

/-- Total of the waits the block asks for in a trace (R140, R250). -/
def requestedWait : List Event → Nat
  | [] => 0
  | .wait us :: es => us + requestedWait es
  | _ :: es => requestedWait es

/-! ## What the display takes in (R61, R111) -/

/-- The snapshots at which the enable line falls, when `before` is on the port first: there the
display controller takes in the data nibble and the selector. -/
def fallingEdges (m : Masks) : Byte → List Byte → List Byte
  | _, [] => []
  | before, v :: vs =>
    if before &&& m.en = m.en ∧ v &&& m.en = 0 then v :: fallingEdges m v vs
    else fallingEdges m v vs

end Sys2Proof.Safety
end

