-- ==== Sys2Proof/Certificates/Slice0/Obligations.lean ====
section
/-! DEFINITION. The statements for the provers. Each docstring names the rule of spec/ it
formalises. -/

open Sys2Proof Sys2Proof.Machine Sys2Proof.Safety

/-! ## Encoding of commands -/

/-- A few words of spec/95_test_vectors.md 2.5, written out, and what they decode as. -/
def Obligations.WrittenWordsDecode : Prop :=
  decode 0b0001000000110000 = .ok (.xfer8 false .instruction 0x30) ∧
  decode 0b0001001111111111 = .ok (.xfer8 true .data 0xFF) ∧
  decode 0b0010000101001000 = .ok (.xfer4 false .data 0x48) ∧
  decode 0b0010001000101000 = .ok (.xfer4 true .instruction 0x28) ∧
  decode 0b0011000000000000 = .ok (.raw 0x00) ∧
  decode 0b0011000011111111 = .ok (.raw 0xFF) ∧
  decode 0b0100000000000000 = .ok (.setbl false) ∧
  decode 0b0100000000000001 = .ok (.setbl true) ∧
  decode 0b0000000000000000 = .error .badOp ∧
  decode 0b1111111111111111 = .error .badOp ∧
  decode 0b0101000000000000 = .error .badOp ∧
  decode 0b0001010000110000 = .error .z2NotZero ∧
  decode 0b0010100000000000 = .error .z2NotZero ∧
  decode 0b0011000100000000 = .error .z4NotZero ∧
  decode 0b0100000000000010 = .error .z11NotZero

/-- The words of the syntax table of R94, for every `imm8`. -/
def Obligations.SyntaxTableWords : Prop :=
  ∀ b : Byte, let imm : Word := b.setWidth 16
    encode (.xfer8 false .instruction b) = 0x1000 ||| imm ∧
    encode (.xfer8 false .data b) = 0x1100 ||| imm ∧
    encode (.xfer8 true .instruction b) = 0x1200 ||| imm ∧
    encode (.xfer8 true .data b) = 0x1300 ||| imm ∧
    encode (.xfer4 false .instruction b) = 0x2000 ||| imm ∧
    encode (.xfer4 false .data b) = 0x2100 ||| imm ∧
    encode (.xfer4 true .instruction b) = 0x2200 ||| imm ∧
    encode (.xfer4 true .data b) = 0x2300 ||| imm ∧
    encode (.raw b) = 0x3000 ||| imm ∧
    encode (.setbl false) = 0x4000 ∧
    encode (.setbl true) = 0x4001

/-- Decoding and encoding agree, in both directions: a word decodes to a command exactly when it
is that command's word. No word stands for two commands and no command loses an operand bit. -/
def Obligations.DecodeEncodeAgree : Prop :=
  ∀ (w : Word) (i : Instr), decode w = .ok i ↔ encode i = w

/-- R91: the reserved words are exactly those with `OP` 0 or 5 to 15, and those of `OP` 1 to 4
with a one in their zero field. -/
def Obligations.ReservedWordsAreExactly : Prop :=
  ∀ w : Word,
    (∃ r, decode w = .error r) ↔
      (w.extractLsb' 12 4 = 0 ∨ 5 ≤ (w.extractLsb' 12 4).toNat) ∨
      ((w.extractLsb' 12 4 = 1 ∨ w.extractLsb' 12 4 = 2) ∧ w.extractLsb' 10 2 ≠ 0) ∨
      (w.extractLsb' 12 4 = 3 ∧ w.extractLsb' 8 4 ≠ 0) ∨
      (w.extractLsb' 12 4 = 4 ∧ w.extractLsb' 1 11 ≠ 0)

/-! ## The frame builder -/

/-- R104, clauses (a) to (h), for all operands under the mask constraint of R9. Clause (i) is in
the functions' types: they read three arguments and the masks. -/
def Obligations.EncodingLaws : Prop :=
  ∀ (m : Masks) (b : Byte) (rs : RegSel) (bl : Bool), m.wf = true →
    let F8 := enc8 m b rs bl
    let F4 := enc4 m b rs bl
    let bit (c : Bool) (k : Byte) : Byte := if c then k else 0
    -- (a)
    F8.length = 3 ∧ F4.length = 6 ∧
    -- (b), (c), (d)
    (∀ F, F = F8 ∨ F = F4 → ∀ (i : Nat) (v : Byte), F[i]? = some v →
      (i % 3 = 0 ∨ i % 3 = 2 → v &&& m.en = 0) ∧ (i % 3 = 1 → v &&& m.en = m.en)) ∧
    (∀ F, F = F8 ∨ F = F4 → ∀ k : Nat, 3 * k + 2 < F.length →
      F[3 * k]? = F[3 * k + 2]? ∧ F[3 * k + 1]? = (F[3 * k]?).map (· ||| m.en)) ∧
    (∀ F, F = F8 ∨ F = F4 → ∀ v : Byte, F.getLast? = some v → v &&& m.en = 0) ∧
    -- (e), (f)
    (∀ (i : Nat) (v : Byte), F4[i]? = some v →
      (i ≤ 2 → v &&& 0xF0#8 = b &&& 0xF0#8) ∧ (3 ≤ i → v &&& 0xF0#8 = (b <<< 4) &&& 0xF0#8) ∧
      v &&& m.rs = bit (rs = .data) m.rs ∧ v &&& m.bl = bit bl m.bl ∧
      v &&& unusedMask m = 0) ∧
    -- (g)
    (∀ (i : Nat) (v : Byte), F8[i]? = some v →
      v &&& 0xF0#8 = b &&& 0xF0#8 ∧
      v &&& 0x0F#8 &&& ~~~m.en =
        ((b &&& 0x0F#8) ||| bit (rs = .data) m.rs ||| bit bl m.bl) &&& ~~~m.en) ∧
    -- (h)
    F4 = enc8 m (b &&& 0xF0#8) rs bl ++ enc8 m ((b <<< 4) &&& 0xF0#8) rs bl

/-- R105: `decode4` recovers the logical byte from its frame, any snapshot of the first triplet
serves for the high nibble and any of the second for the low one, and `decode8` recovers the top
four bits. -/
def Obligations.DecodeRecoversTheByte : Prop :=
  ∀ (m : Masks) (b : Byte) (rs : RegSel) (bl : Bool), m.wf = true →
    decode4 (enc4 m b rs bl) = b ∧
    (∀ (i j : Nat) (u v : Byte), i < 3 → 3 ≤ j →
      (enc4 m b rs bl)[i]? = some u → (enc4 m b rs bl)[j]? = some v →
      (u &&& 0xF0#8) ||| ((v &&& 0xF0#8) >>> 4) = b) ∧
    decode8 (enc8 m b rs bl) = b &&& 0xF0#8

/-- R109: in EightBit mode a one in the low nibble acts on its control line, whatever `RS` and
`BL` say, and a zero never clears one. -/
def Obligations.WideLowNibbleActsOnControlLines : Prop :=
  ∀ (m : Masks) (b : Byte) (rs : RegSel) (bl : Bool) (i : Nat) (v : Byte), m.wf = true →
    (enc8 m b rs bl)[i]? = some v →
      v &&& m.rs = (if rs = .data ∨ b &&& m.rs ≠ 0 then m.rs else 0) ∧
      v &&& m.bl = (if bl = true ∨ b &&& m.bl ≠ 0 then m.bl else 0) ∧
      v &&& unusedMask m = b &&& unusedMask m ∧
      (v &&& m.en = if i = 1 then m.en else 0)

/-- R111 and R54: from a port with enable low, a FourBit frame makes two falling edges of enable,
the high nibble first, and an EightBit frame makes one, each with the selector and the backlight
on the lines. -/
def Obligations.FrameClocksNibblesInOrder : Prop :=
  ∀ (m : Masks) (before b : Byte) (rs : RegSel) (bl : Bool), m.wf = true → before &&& m.en = 0 →
    fallingEdges m before (enc4 m b rs bl) =
      [(b &&& 0xF0#8) ||| ctl m rs bl, ((b <<< 4) &&& 0xF0#8) ||| ctl m rs bl] ∧
    fallingEdges m before (enc8 m b rs bl) = [(b ||| ctl m rs bl) &&& ~~~m.en]

/-! ## The four commands at their accept -/

/-- R87 (and R107, R121, R122): XFER8 builds the EightBit frame, leaves `FRAME[3..5]`, and starts
the transfer; this is its completion. -/
def Obligations.Xfer8BuildsItsFrame : Prop :=
  ∀ (s : State) (more : Bool) (rs : RegSel) (byte : Byte), PortReady s →
    let m := s.par.masks
    let v := byte ||| (if rs = .data then m.rs else 0) ||| (if s.bl then m.bl else 0)
    exec (.xfer8 more rs byte) s = .next
      { s with
        frame := { s.frame with f0 := v &&& ~~~m.en, f1 := v ||| m.en, f2 := v &&& ~~~m.en }
        len := 3
        idx := 0
        more := more
        st := .ok
        count := 0
        reason := Config.abortNone
        ph := if s.ph = .idle then .addr else .rdy }

/-- R88 (and R108, R121, R122): XFER4 builds the FourBit frame and starts the transfer; this is its
completion. Under the mask constraint of R9 neither nibble's value has the enable bit. -/
def Obligations.Xfer4BuildsItsFrame : Prop :=
  ∀ (s : State) (more : Bool) (rs : RegSel) (byte : Byte), PortReady s →
    let m := s.par.masks
    let c := (if rs = .data then m.rs else 0) ||| (if s.bl then m.bl else 0)
    let hi := (byte &&& 0xF0#8) ||| c
    let lo := ((byte <<< 4) &&& 0xF0#8) ||| c
    exec (.xfer4 more rs byte) s = .next
      { s with
        frame :=
          { f0 := hi &&& ~~~m.en, f1 := hi ||| m.en, f2 := hi &&& ~~~m.en
            f3 := lo &&& ~~~m.en, f4 := lo ||| m.en, f5 := lo &&& ~~~m.en }
        len := 6
        idx := 0
        more := more
        st := .ok
        count := 0
        reason := Config.abortNone
        ph := if s.ph = .idle then .addr else .rdy } ∧
    (m.wf = true → hi &&& ~~~m.en = hi ∧ lo &&& ~~~m.en = lo)

/-- R89 (and R139): RAW in IDLE puts its byte in `FRAME[0]` as given, leaves the other elements, and
starts the transfer; this is its completion. -/
def Obligations.RawTakesItsByteAsGiven : Prop :=
  ∀ (s : State) (byte : Byte), s.ph = .idle →
    exec (.raw byte) s = .next
      { s with
        frame := { s.frame with f0 := byte }
        len := 1
        idx := 0
        more := false
        st := .ok
        count := 0
        reason := Config.abortNone
        ph := .addr }

/-- R164: RAW in HELD is answered as a reserved word is (R163): only `ST`, `COUNT`, `REASON` and
the response; the open frame stays open. -/
def Obligations.RawInHeldIsIllegal : Prop :=
  ∀ (s : State) (byte : Byte), s.ph = .held →
    exec (.raw byte) s = .next
      { s with
        st := .illegal
        count := 0
        reason := Config.abortNone
        trace := .respond .illegal 0 Config.abortNone :: s.trace }

/-- R160, R161: SETBL writes `BL` and responds `(OK, 0, ABORT_NONE)`, in IDLE and in HELD, and
touches nothing else; this is its completion. -/
def Obligations.SetblWritesOnlyTheLatch : Prop :=
  ∀ (s : State) (v : Bool), PortReady s →
    exec (.setbl v) s = .next
      { s with
        bl := v
        st := .ok
        count := 0
        reason := Config.abortNone
        trace := .respond .ok 0 Config.abortNone :: s.trace }

/-- R80 as the model takes it (log 10): a command offered while the port is not ready is not
accepted, and nothing is written. -/
def Obligations.BusyPortAcceptsNothing : Prop :=
  ∀ (i : Instr) (s : State), ¬ PortReady s → exec i s = .next s

/-- The frame of every command at its accept: no byte of the port space, no parameter, not
`TARGET_ADDR`, no input changes; only SETBL writes `BL`; SETBL writes neither `FRAME`, `LEN`,
`IDX`, `MORE` nor `PH`; XFER8 leaves `FRAME[3..5]` and RAW `FRAME[1..5]`; a transferring command
that is started makes no event. -/
def Obligations.ExecFrame : Prop :=
  ∀ (i : Instr) (s t : State), exec i s = .next t →
    t.par = s.par ∧ t.targetAddr = s.targetAddr ∧ t.inp = s.inp ∧ t.mem = s.mem ∧
    (∀ a, t.mem.read a = s.mem.read a) ∧
    ((∀ v, i ≠ .setbl v) → t.bl = s.bl) ∧
    (∀ v, i = .setbl v →
      t.frame = s.frame ∧ t.len = s.len ∧ t.idx = s.idx ∧ t.more = s.more ∧ t.ph = s.ph) ∧
    (∀ more rs b, i = .xfer8 more rs b →
      t.frame.f3 = s.frame.f3 ∧ t.frame.f4 = s.frame.f4 ∧ t.frame.f5 = s.frame.f5) ∧
    (∀ b, i = .raw b →
      t.frame.f1 = s.frame.f1 ∧ t.frame.f2 = s.frame.f2 ∧ t.frame.f3 = s.frame.f3 ∧
      t.frame.f4 = s.frame.f4 ∧ t.frame.f5 = s.frame.f5) ∧
    (t.ph ≠ s.ph → t.trace = s.trace)

/-! ## A step with a ready port -/

/-- A step runs the decoded command: with a ready port, the step takes the word presented and is
`exec` of what it decodes to, at the state with that word and this step's `rst` sample used up. -/
def Obligations.StepRunsTheDecodedCommand : Prop :=
  ∀ (s : State) (w : Word) (rest : List HostAct) (i : Instr), Running s → PortReady s →
    s.inp.host = .present w :: rest → decode w = .ok i →
      step s = exec i { s with inp := { s.inp with host := rest, rst := s.inp.rst.tail } }

/-- The next step runs the word that `withFetchWord` places, from any phase (log 17). -/
def Obligations.PlacedWordRunsNext : Prop :=
  ∀ (s : State) (nbits w : Nat) (i : Instr), s.par.wf = true → nbits ≤ 16 →
    decodeTableWord nbits w = some i →
      step (s.withFetchWord nbits w) =
        exec i { s with ph := if s.ph = .held then .held else .idle }

/-- R163: a reserved word accepted in IDLE or HELD changes `ST`, `COUNT` and `REASON` and makes one
response, and nothing else. -/
def Obligations.ReservedWordIsAnsweredIllegal : Prop :=
  ∀ (s : State) (w : Word) (rest : List HostAct) (r : Reserved), Running s → PortReady s →
    s.inp.host = .present w :: rest → decode w = .error r →
      step s = .next
        { s with
          st := .illegal
          count := 0
          reason := Config.abortNone
          inp := { s.inp with host := rest, rst := s.inp.rst.tail }
          trace := .respond .illegal 0 Config.abortNone :: s.trace }

/-- R95, R137: during a host wait, and with no command presented, the block does nothing. -/
def Obligations.BlockRestsWithoutACommand : Prop :=
  ∀ (s : State), Running s → PortReady s →
    (s.inp.host = [] → step s = .next { s with inp := { s.inp with rst := s.inp.rst.tail } }) ∧
    (∀ us rest, s.inp.host = .wait us :: rest →
      step s = .next
        { s with
          inp := { s.inp with host := rest, rst := s.inp.rst.tail }
          trace := .hostWait us :: s.trace })

/-! ## The transfer engine, phase by phase -/

/-- R123: the prologue's events in order, with the bus disabled and enabled around the selection
exactly when `ENABLE_TOGGLE`, and then RDY. -/
def Obligations.PrologueSelectsTheTarget : Prop :=
  ∀ s : State, Running s → s.ph = .addr →
    step s = .next
      { s with
        ph := .rdy
        inp := { s.inp with rst := s.inp.rst.tail }
        trace :=
          if s.par.enableToggle then
            .critExit :: .busEnable :: .setTarget s.targetAddr :: .busDisable :: .critEnter ::
              s.trace
          else .critExit :: .setTarget s.targetAddr :: .critEnter :: s.trace }

/-- R125: RDY polls once a step; true goes to WR, false stays. No other event is made. -/
def Obligations.ReadyIsPolledUntilTrue : Prop :=
  ∀ s : State, Running s → s.ph = .rdy →
    step s = .next
      { s with
        ph := if s.readyAnswer then .wr else .rdy
        inp :=
          { s.inp with
            rst := s.inp.rst.tail, ready := s.inp.ready.tail, polls := s.inp.polls + 1 }
        trace := .pollReady s.readyAnswer :: s.trace }

/-- The model's choice (log 1): a poll gets the next answer of its list, an abort code taken in
`ABORT_W` bits. -/
def Obligations.PollsGetTheListedAnswers : Prop :=
  ∀ s : State,
    (∀ b bs, s.inp.ready = b :: bs → s.readyAnswer = b) ∧
    (∀ b bs, s.inp.qEmpty = b :: bs → s.qEmptyAnswer = b) ∧
    (∀ b bs, s.inp.busy = b :: bs → s.busyAnswer = b) ∧
    (∀ a as, s.inp.abort = a :: as → s.abortAnswer = a % 2 ^ s.par.abortW)

/-- R126: WR makes one `BusWrite` of `FRAME[IDX]`, with the stop flag of R131, that is exactly on the
last snapshot of a command with `MORE = 0`; `COUNT` goes up by one, and SETTLE is next. -/
def Obligations.WriteHandsOverOneSnapshot : Prop :=
  ∀ (s : State) (v : Byte), Running s → s.ph = .wr → s.frame.get? s.idx.toNat = some v →
    ∃ mem, step s = .next
      { s with
        mem := mem
        count := s.count + 1
        ph := .settle
        inp := { s.inp with rst := s.inp.rst.tail }
        trace :=
          .busWrite v (decide (s.idx.toNat + 1 = s.len.toNat) && !s.more) :: s.trace }

/-- The port space of R50 and R51 as the model holds it (log 9): after the write `PORT` holds the byte
handed over, and every other address reads as before. -/
def Obligations.PortHoldsTheByteHandedOver : Prop :=
  ∀ (s : State) (v : Byte), Running s → s.ph = .wr → s.frame.get? s.idx.toNat = some v →
    ∃ t, step s = .next t ∧ t.mem.read Config.portKey = some v ∧
      ∀ a, a ≠ Config.portKey → t.mem.read a = s.mem.read a

/-- R127: the settle wait, long after the third snapshot of a triplet and short after every
other; 37 and 1 microseconds with the default parameters. -/
def Obligations.SettleWaitsByPosition : Prop :=
  (∀ s : State, Running s → s.ph = .settle →
    step s = .next
      { s with
        ph := .chk
        inp := { s.inp with rst := s.inp.rst.tail }
        trace :=
          .wait (if s.idx.toNat % 3 = 2 then s.par.tLatchUs else riseWaitUs s.par) :: s.trace }) ∧
  Config.defaultParams.tLatchUs = 37 ∧ riseWaitUs Config.defaultParams = 1

/-- R8, R127 (log 24): `T_RISE_WAIT_US` is the least multiple of `T_GRAN_US` that is not less than
`T_RISE_NS`. -/
def Obligations.RiseWaitIsTheLeastMultiple : Prop :=
  ∀ p : Params, 0 < p.tGranUs →
    (∃ k, riseWaitUs p = k * p.tGranUs) ∧ p.tRiseNs ≤ 1000 * riseWaitUs p ∧
    (∀ k, p.tRiseNs ≤ 1000 * (k * p.tGranUs) → riseWaitUs p ≤ k * p.tGranUs)

/-- R128, R129, R130: a clean sample in CHK advances `IDX` and goes on with the next snapshot, or
ends the command with `MORE = 1` by its response and HELD, or starts the drain. -/
def Obligations.CleanSampleGoesOn : Prop :=
  ∀ s : State, Running s → s.ph = .chk → s.abortAnswer = Config.abortNone →
    let u : State :=
      { s with
        idx := s.idx + 1
        inp :=
          { s.inp with
            rst := s.inp.rst.tail, abort := s.inp.abort.tail, polls := s.inp.polls + 1 }
        trace := .pollAbort Config.abortNone :: s.trace }
    (s.idx.toNat + 1 < s.len.toNat → step s = .next { u with ph := .rdy }) ∧
    (s.idx.toNat + 1 = s.len.toNat → s.more = true →
      step s = .next
        { u with
          ph := .held
          st := .ok
          count := s.len
          reason := Config.abortNone
          trace := .respond .ok s.len Config.abortNone :: u.trace }) ∧
    (s.idx.toNat + 1 = s.len.toNat → s.more = false → step s = .next { u with ph := .drainQ })

/-- R136: the abort exit, from CHK and from CHKF, whatever `MORE` and `IDX` are: `REASON`, `ST`, one
`ClearAbort`, the response with `COUNT` as it is, and IDLE; nothing else changes, and no write is
made. -/
def Obligations.AbortSampleExits : Prop :=
  ∀ s : State, Running s → (s.ph = .chk ∨ s.ph = .chkF) → s.abortAnswer ≠ Config.abortNone →
    step s = .next
      { s with
        reason := s.abortAnswer
        st := .busAbort
        ph := .idle
        inp :=
          { s.inp with
            rst := s.inp.rst.tail, abort := s.inp.abort.tail, polls := s.inp.polls + 1 }
        trace :=
          .respond .busAbort s.count s.abortAnswer :: .clearAbort :: .pollAbort s.abortAnswer ::
            s.trace }

/-- R132, R133: the drain polls the queue until it is empty and then the bus until it is not busy,
each in its own loop. -/
def Obligations.DrainPollsQueueThenBus : Prop :=
  ∀ s : State, Running s →
    (s.ph = .drainQ →
      step s = .next
        { s with
          ph := if s.qEmptyAnswer then .drainB else .drainQ
          inp :=
            { s.inp with
              rst := s.inp.rst.tail, qEmpty := s.inp.qEmpty.tail, polls := s.inp.polls + 1 }
          trace := .pollQEmpty s.qEmptyAnswer :: s.trace }) ∧
    (s.ph = .drainB →
      step s = .next
        { s with
          ph := if s.busyAnswer then .drainB else .chkF
          inp :=
            { s.inp with
              rst := s.inp.rst.tail, busy := s.inp.busy.tail, polls := s.inp.polls + 1 }
          trace := .pollBusy s.busyAnswer :: s.trace })

/-- R134, R135: a clean last sample closes the frame with the response `(OK, LEN, ABORT_NONE)` and
IDLE. -/
def Obligations.CleanLastSampleCloses : Prop :=
  ∀ s : State, Running s → s.ph = .chkF → s.abortAnswer = Config.abortNone →
    step s = .next
      { s with
        ph := .idle
        st := .ok
        count := s.len
        reason := Config.abortNone
        inp :=
          { s.inp with
            rst := s.inp.rst.tail, abort := s.inp.abort.tail, polls := s.inp.polls + 1 }
        trace := .respond .ok s.len Config.abortNone :: .pollAbort Config.abortNone :: s.trace }

/-! ## Reset and parameters -/

/-- R36: the reset state, as far as the spec gives it. `FRAME` and the value of `TARGET_ADDR` are
the model's choice (log 3, log 4) and are not claimed. -/
def Obligations.ResetStateIsAsGiven : Prop :=
  State.reset.len = 0 ∧ State.reset.idx = 0 ∧ State.reset.ph = .idle ∧ State.reset.more = false ∧
  State.reset.bl = false ∧ State.reset.st = .ok ∧ State.reset.count = 0 ∧
  State.reset.reason = Config.abortNone ∧ State.reset.par.wf = true ∧
  ∀ s : State, s.resetBlock.targetAddr = s.targetAddr

/-- R36, R230, R231, R209 f: `rst` wins in any phase; the block takes the reset values, makes no
event, and leaves `TARGET_ADDR`. That `rst` is a list of samples is the model's choice (log 6), and
that the parameters, the port space and what the host and the collaborators will do are left is
too (log 20). -/
def Obligations.ResetInputWins : Prop :=
  ∀ s : State, s.par.wf = true → s.rstAsserted = true →
    ∃ t, step s = .next t ∧
      t.ph = .idle ∧ t.len = 0 ∧ t.idx = 0 ∧ t.more = false ∧ t.bl = false ∧ t.st = .ok ∧
      t.count = 0 ∧ t.reason = Config.abortNone ∧
      t.targetAddr = s.targetAddr ∧ t.par = s.par ∧ t.mem = s.mem ∧ t.trace = s.trace ∧
      t.inp = { s.inp with rst := s.inp.rst.tail }

/-- S11 of spec/93_implementation_defined.md: parameters that break R9 are rejected, and only
those. -/
def Obligations.BadParametersAreRejected : Prop :=
  ∀ s : State,
    (s.par.wf = false → step s = .refused .badParameters) ∧
    (s.par.wf = true → ∀ r, step s ≠ .refused r)

/-! ## The whole machine -/

/-- The frame of a step: no step changes the parameters or `TARGET_ADDR` (R31); only WR changes the
port space, and only at `PORT` (R51); the trace only grows (R63; log 7); in a busy phase without
reset, `FRAME`, `LEN`, `MORE` and `BL` stay (R21, R27), and what the host will do waits
(R209 a). -/
def Obligations.StepFrame : Prop :=
  ∀ s t : State, step s = .next t →
    t.par = s.par ∧ t.targetAddr = s.targetAddr ∧
    (s.ph ≠ .wr → t.mem = s.mem) ∧
    (∀ a, a ≠ Config.portKey → t.mem.read a = s.mem.read a) ∧
    (∃ es, t.trace = es ++ s.trace) ∧
    (¬ PortReady s → s.rstAsserted = false →
      t.frame = s.frame ∧ t.len = s.len ∧ t.more = s.more ∧ t.bl = s.bl ∧
      t.inp.host = s.inp.host)

/-- R27: only reset and an accepted SETBL change `BL`. -/
def Obligations.OnlySetblAndResetWriteBacklight : Prop :=
  ∀ s t : State, step s = .next t → t.bl ≠ s.bl →
    s.rstAsserted = true ∨
      (PortReady s ∧ ∃ w rest, s.inp.host = .present w :: rest ∧ decode w = .ok (.setbl t.bl))

/-- R137: "No other transition exists." The moves of `PH` that a step can make without reset. -/
def Obligations.PhaseMovesAreThoseOfTheTable : Prop :=
  ∀ s t : State, step s = .next t → s.rstAsserted = false →
    match s.ph with
    | .idle => t.ph = .idle ∨ t.ph = .addr
    | .held => t.ph = .held ∨ t.ph = .rdy
    | .addr => t.ph = .rdy
    | .rdy => t.ph = .rdy ∨ t.ph = .wr
    | .wr => t.ph = .settle
    | .settle => t.ph = .chk
    | .chk => t.ph = .rdy ∨ t.ph = .held ∨ t.ph = .drainQ ∨ t.ph = .idle
    | .drainQ => t.ph = .drainQ ∨ t.ph = .drainB
    | .drainB => t.ph = .drainB ∨ t.ph = .chkF
    | .chkF => t.ph = .idle

/-- The state after reset meets the invariant of R37. -/
def Obligations.ResetMeetsInvariant : Prop := StateInv State.reset

/-- R37: every step from a state that meets the invariant leads to one that does. -/
def Obligations.StepKeepsInvariant : Prop :=
  ∀ s t : State, StateInv s → step s = .next t → StateInv t

/-- From a state that meets the invariant the machine never stops: with admitted parameters every
step answers a next state, in every phase and for every answer of the environment. -/
def Obligations.InvariantStateAlwaysSteps : Prop :=
  ∀ s : State, s.par.wf = true → StateInv s → ∃ t, step s = .next t

/-- The state after reset breaks no rule of the bus discipline. That its port space is in canonical
form is about the model's own way to hold that space (log 9). -/
def Obligations.ResetIsDisciplined : Prop := Disciplined State.reset ∧ State.reset.mem.wf = true

/-- R64 (b) to (e), R58, R69, R123, R131: every step keeps the bus discipline. In every trace it
leads to: a write comes only in a frame whose prologue selected `TARGET_ADDR` inside one critical
section, after a true `PollReady` and after the settle wait its predecessor's place in the frame
asks for, and never after a stop; the drain polls follow the stop; an OK response after a stop
comes only after the drain; `ClearAbort` comes only after a bad sample, and BUSABORT only after
`ClearAbort`. -/
def Obligations.StepKeepsBusDiscipline : Prop :=
  ∀ s t : State, StateInv s → Disciplined s → step s = .next t → Disciplined t

/-- Every step keeps the canonical form of the port space. -/
def Obligations.StepKeepsPortSpaceForm : Prop :=
  ∀ s t : State, s.mem.wf = true → step s = .next t → t.mem.wf = true

/-- The block keeps no history (R20): what a step does does not depend on the trace; the same
events are added to any other one. -/
def Obligations.HistoryIsNotRead : Prop :=
  ∀ (s t : State) (other : List Event), step s = .next t →
    ∃ es, t.trace = es ++ s.trace ∧
      step { s with trace := other } = .next { t with trace := es ++ other }

/-- R205, R245: a poll the environment never answers favourably holds the block in its loop for as
long as it lasts; no response is made and the host's next word waits. -/
def Obligations.StalledBusHangs : Prop :=
  ∀ (n : Nat) (s : State), s.par.wf = true → s.inp.rst = [] →
    (s.ph = .rdy → s.inp.ready = List.replicate n false →
      ∃ t, runs n s = .next t ∧ t.ph = .rdy ∧ t.inp.host = s.inp.host ∧
        t.trace = List.replicate n (.pollReady false) ++ s.trace) ∧
    (s.ph = .drainQ → s.inp.qEmpty = List.replicate n false →
      ∃ t, runs n s = .next t ∧ t.ph = .drainQ ∧ t.inp.host = s.inp.host ∧
        t.trace = List.replicate n (.pollQEmpty false) ++ s.trace) ∧
    (s.ph = .drainB → s.inp.busy = List.replicate n true →
      ∃ t, runs n s = .next t ∧ t.ph = .drainB ∧ t.inp.host = s.inp.host ∧
        t.trace = List.replicate n (.pollBusy true) ++ s.trace)

/-! ## Whole commands -/

/-- R140: a transferring command whose polls are all favourable at once runs from its accept to the
response `(OK, LEN, ABORT_NONE)`, with exactly the events of a clean trace: the prologue only when
it opens a frame, each snapshot polled, written, waited for and sampled in index order, the stop flag
on the last, the drain and the last sample only when it closes the frame. -/
def Obligations.CleanCommandRunsToItsResponse : Prop :=
  ∀ (s : State) (i : Instr) (rest : List HostAct) (rd qe bu : List Bool) (ab : List AbortCode),
    s.par.wf = true → s.inp.rst = [] → PortReady s →
    (∀ v, i ≠ .setbl v) → (∀ b, i = .raw b → s.ph = .idle) →
    let bs := snapshots s.par.masks s.bl i
    let n := bs.length
    s.inp.host = .present (encode i) :: rest →
    s.inp.ready = List.replicate n true ++ rd →
    s.inp.abort = List.replicate (if moreOf i then n else n + 1) Config.abortNone ++ ab →
    (moreOf i = false → s.inp.qEmpty = true :: qe ∧ s.inp.busy = false :: bu) →
    ∃ t, runs (1 + (if s.ph = .idle then 1 else 0) + 4 * n + (if moreOf i then 0 else 3)) s
        = .next t ∧
      t.ph = (if moreOf i then .held else .idle) ∧
      t.st = .ok ∧ t.count = BitVec.ofNat 3 n ∧ t.reason = Config.abortNone ∧
      t.frame = s.frame.load bs ∧ t.len = BitVec.ofNat 3 n ∧ t.idx = BitVec.ofNat 3 n ∧
      t.more = moreOf i ∧ t.bl = s.bl ∧ t.inp.host = rest ∧
      t.trace =
        (cleanTrace s.par s.targetAddr (s.ph = .idle) (moreOf i) bs).reverse ++ s.trace

/-- R141: the first bad abort sample ends the command. After the sample that follows snapshot `k`,
snapshots 0 to `k` have been written and no other, and the response is `(BUSABORT, k + 1, code)`;
after the sample that follows the drain, all have been written and the response carries `LEN`. In
both cases one `ClearAbort` stands between the sample and the response. -/
def Obligations.AbortedCommandStopsAtItsSample : Prop :=
  ∀ (s : State) (i : Instr) (rest : List HostAct) (rd qe bu : List Bool) (ab : List AbortCode)
      (a : AbortCode),
    s.par.wf = true → s.inp.rst = [] → PortReady s →
    (∀ v, i ≠ .setbl v) → (∀ b, i = .raw b → s.ph = .idle) →
    let bs := snapshots s.par.masks s.bl i
    let n := bs.length
    let code := a % 2 ^ s.par.abortW
    let opened : Nat := if s.ph = .idle then 1 else 0
    s.inp.host = .present (encode i) :: rest → code ≠ Config.abortNone →
    (∀ (k : Nat) (v : Byte), bs[k]? = some v →
      s.inp.ready = List.replicate (k + 1) true ++ rd →
      s.inp.abort = List.replicate k Config.abortNone ++ a :: ab →
      ∃ t, runs (1 + opened + 4 * (k + 1)) s = .next t ∧
        t.ph = .idle ∧ t.st = .busAbort ∧ t.count = BitVec.ofNat 3 (k + 1) ∧ t.reason = code ∧
        t.idx = BitVec.ofNat 3 k ∧ t.inp.host = rest ∧
        t.trace =
          (abortedTrace s.par s.targetAddr (s.ph = .idle) (moreOf i) bs k v code).reverse ++
            s.trace) ∧
    (moreOf i = false →
      s.inp.ready = List.replicate n true ++ rd →
      s.inp.qEmpty = true :: qe → s.inp.busy = false :: bu →
      s.inp.abort = List.replicate n Config.abortNone ++ a :: ab →
      ∃ t, runs (1 + opened + 4 * n + 3) s = .next t ∧
        t.ph = .idle ∧ t.st = .busAbort ∧ t.count = BitVec.ofNat 3 n ∧ t.reason = code ∧
        t.idx = BitVec.ofNat 3 n ∧ t.inp.host = rest ∧
        t.trace =
          (lateAbortTrace s.par s.targetAddr (s.ph = .idle) bs code).reverse ++ s.trace)

/-- R138: the sequential procedure and the transition table are the same machine. Without reset,
from a command just accepted (or continuing), the procedure ends in a state, with some bounds on its
polls, exactly when the table first makes the port ready in that state. -/
def Obligations.ProcedureAgreesWithTable : Prop :=
  ∀ s t : State, s.par.wf = true → s.inp.rst = [] → (s.ph = .addr ∨ s.ph = .rdy) →
    s.idx.toNat < s.len.toNat →
      ((∃ fuel, transfer fuel (s.ph = .addr) s = some t) ↔ ∃ n, toReady n s = some t)

/-- R140, R250: the wait a clean command asks for in all, by its number of snapshots. -/
def Obligations.RequestedWaitOfACleanCommand : Prop :=
  ∀ (p : Params) (target : Addr) (opened more : Bool) (bs : List Byte),
    (bs.length = 3 ∨ bs.length = 6 →
      requestedWait (cleanTrace p target opened more bs) =
        bs.length / 3 * (p.tLatchUs + 2 * riseWaitUs p)) ∧
    (bs.length = 1 → requestedWait (cleanTrace p target opened more bs) = riseWaitUs p)

/-! ## The host's macros -/

/-- R170: with the defaults the flags start at false, true, false, false, for every geometry, and such
a configuration is admitted exactly when `LINES` is 1 or 2 (R10). In every admitted configuration
(log 27) `backlight` and `BL` "both start at 0". -/
def Obligations.DefaultAttributesStartAsGiven : Prop :=
  (∀ (lines cols fontH : Nat) (entry : EntryMode) (shift : ShiftMode),
    let c := HostConfig.default lines cols fontH entry shift
    DisplayAttrs.start c =
      { backlight := false, displayOn := true, cursorOn := false, blinkOn := false
        entryMode := entry, shiftMode := shift } ∧
    (c.wf = true ↔ lines = 1 ∨ lines = 2)) ∧
  ∀ c : HostConfig, c.wf = true →
    (DisplayAttrs.start c).backlight = false ∧ Mirrored (DisplayAttrs.start c) State.reset

/-- R170: "The block's `BL` mirrors `backlight`". Every macro keeps it so, from a ready port without
reset (log 6), where it runs to its end and where it stops at a response that is not OK. -/
def Obligations.MacrosKeepBacklightMirrored : Prop :=
  ∀ (c : HostConfig) (a : DisplayAttrs) (on : Bool) (col row slot len : Nat) (data : List Byte)
      (bitmap : Vector Byte 8) (fuel : Nat) (s : State) (e : MacroEnd),
    PortReady s → s.inp.rst = [] → Mirrored a s →
    ∀ m ∈ allMacros c a on col row slot len data bitmap,
      runMacro fuel m a s = some e → Mirrored e.attrs e.machine

/-- R171, R172: the composed display command depends on the final values of three flags alone; the
four setters commute, and the backlight does not enter the command. -/
def Obligations.DisplaySettersCommute : Prop :=
  ∀ (k : HostConst) (a : DisplayAttrs) (p q : Bool),
    let after (f : DisplayAttrs → Macro) (a : DisplayAttrs) := (f a).attrsAfter a
    let light (on : Bool) := after (setBacklight k on)
    let display (on : Bool) := after (setDisplay k on)
    let cursor (on : Bool) := after (setCursorVisible k on)
    let blink (on : Bool) := after (setBlink k on)
    display p (cursor q a) = cursor q (display p a) ∧
    display p (blink q a) = blink q (display p a) ∧
    display p (light q a) = light q (display p a) ∧
    cursor p (blink q a) = blink q (cursor p a) ∧
    cursor p (light q a) = light q (cursor p a) ∧
    blink p (light q a) = light q (blink p a) ∧
    composeDisplayCommand k (light p a) = composeDisplayCommand k a ∧
    composeDisplayCommand k a =
      k.displayCmdBase ||| (if a.displayOn then k.displayOn else 0) |||
        (if a.cursorOn then k.cursorOn else 0) ||| (if a.blinkOn then k.blinkOn else 0)

/-- R186: `setCursor` clamps the row at `row >= LINES`, so no address passes the last configured row
offset, and within the configured rows of the document's table the command is `0x80` with the sum,
taken modulo 256. -/
def Obligations.CursorRowIsClamped : Prop :=
  ∀ (c : HostConfig) (col row : Nat), c.linesLegal = true →
    (row ≥ c.lines → cursorCommand c col row = cursorCommand c col (c.lines - 1)) ∧
    (c.const = HostConst.table → row < c.lines →
      cursorCommand c col row =
        0x80 ||| BitVec.ofNat 8 (col + if row = 0 then 0x00 else 0x40))

/-- R190 and the round trip of spec/95_test_vectors.md E6: `createChar` sends the glyph address of
its slot modulo 8 and then the bitmap's bytes in order; the data words decode to those bytes, and
their frames give them back. -/
def Obligations.GlyphBytesAreSentAsGiven : Prop :=
  ∀ (slot : Nat) (bitmap : Vector Byte 8) (m : Masks) (bl : Bool), m.wf = true →
    ∃ data : List Word,
      createChar HostConst.table slot bitmap =
        sendCommand (BitVec.ofNat 8 (0x40 + 8 * (slot % 8))) ::
          data.map (MacroStep.act ∘ HostAct.present) ∧
      data.length = 8 ∧
      ∀ (k : Nat) (w : Word) (b : Byte), data[k]? = some w → bitmap.toList[k]? = some b →
        decode w = .ok (.xfer4 false .data b) ∧
        decode4 (snapshots m bl (.xfer4 false .data b)) = b

/-- R193: no macro builds a reserved word, and none issues RAW inside a burst: RAW stands in
`init()` alone, once, before any command of a frame. -/
def Obligations.MacrosIssueOnlyCommands : Prop :=
  ∀ (c : HostConfig) (a : DisplayAttrs) (on : Bool) (col row slot len : Nat) (data : List Byte)
      (bitmap : Vector Byte 8),
    (∀ m ∈ allMacros c a on col row slot len data bitmap,
      NoReserved m.acts ∧ (m ≠ initSequence c a → NoRaw m.acts)) ∧
    ∃ rest, (initSequence c a).acts =
        .wait c.const.tPowerUs :: issue (.raw c.const.rawBlOff) :: rest ∧ NoRaw rest

/-- R90, R144: a burst sets `MORE` on every command but the last. -/
def Obligations.BurstLeavesOpenAllButTheLast : Prop :=
  ∀ (cs : List Instr) (c : Instr),
    burst (cs ++ [c]) = cs.map (withMore true) ++ [withMore false c] ∧
    (∀ i ∈ cs, (∀ b, i ≠ .raw b) → (∀ v, i ≠ .setbl v) → moreOf (withMore true i) = true) ∧
    moreOf (withMore false c) = false

/-- R192: a macro stops at the first response that is not OK and reports it. What would have
followed is not issued, whatever it is; the attribute changes made before the command that was
answered so stay made, and no other is made. A macro of which every response was OK has made all
its changes and goes on with what follows. -/
def Obligations.MacroStopsAtTheFirstError : Prop :=
  ∀ (fuel : Nat) (m next : Macro) (a : DisplayAttrs) (s : State) (e : MacroEnd),
    runMacro fuel m a s = some e →
      (∀ r, e.stoppedAt = some r →
        r.st ≠ .ok ∧ runMacro fuel (m ++ next) a s = some e ∧
        ∃ before w rest, m = before ++ .act (.present w) :: rest ∧
          e.attrs = Macro.attrsAfter before a ∧
          ∃ t, runMacro fuel before a s =
            some { stoppedAt := none, attrs := e.attrs, machine := t } ∧
            toResponse fuel (t.hostDoes (.present w)) = some (r, e.machine)) ∧
      (e.stoppedAt = none →
        e.attrs = m.attrsAfter a ∧
        runMacro fuel (m ++ next) a s = runMacro fuel next e.attrs e.machine)

/-- R184, R192: `init()` is its first eight steps and then `setBacklight(true)`. The first eight
change no attribute, so an `init()` that stops in one of them leaves the attributes it was called
with. -/
def Obligations.InitChangesBacklightAtStepNine : Prop :=
  ∀ (c : HostConfig) (a : DisplayAttrs), ∃ before,
    initSequence c a = before ++ setBacklight c.const true a ∧
    before.attrsAfter a = a ∧
    ∀ (fuel : Nat) (s : State) (e : MacroEnd) (r : Response),
      runMacro fuel before a s = some e → e.stoppedAt = some r →
        runMacro fuel (initSequence c a) a s = some e ∧ e.attrs = a
end

