-- ==== Sys2Proof/Laws/Encoder.lean ====
section
/-! SUPPORT. The laws of the mask constraint (spec/00_scope.md R9) and of the triplet
(spec/40_encoder.md R101). -/

namespace Sys2Proof.Machine

theorem oneBit_low_nibble {x : Byte} (h : oneBit x = true) (hl : x &&& 0xF0#8 = 0) :
    ∃ k : Fin 4, x = 1 <<< k.val := by
  revert x; decide

theorem and_eq_zero_of_or {a b c : Byte} (h : (a ||| b) &&& c = 0) :
    a &&& c = 0 ∧ b &&& c = 0 := by
  have h' : (a &&& c) ||| (b &&& c) = 0 := by
    rw [← h]; ext i hi; simp [Bool.and_or_distrib_right]
  exact BitVec.or_eq_zero_iff.1 h'

/-- Admitted masks are three different bits of the low nibble. -/
theorem wf_masks_cases {m : Masks} (h : m.wf = true) :
    ∃ i j k : Fin 4, i ≠ j ∧ i ≠ k ∧ j ≠ k ∧
      m = { rs := 1 <<< i.val, en := 1 <<< j.val, bl := 1 <<< k.val } := by
  obtain ⟨rs, en, bl⟩ := m
  simp only [Masks.wf, Masks.single, Masks.distinct, Masks.lowNibble, Bool.and_eq_true,
    bne_iff_ne, beq_iff_eq] at h
  obtain ⟨⟨⟨⟨h1, h2⟩, h3⟩, ⟨d1, d2⟩, d3⟩, hl⟩ := h
  obtain ⟨hl, l3⟩ := and_eq_zero_of_or hl
  obtain ⟨l1, l2⟩ := and_eq_zero_of_or hl
  obtain ⟨i, rfl⟩ := oneBit_low_nibble h1 l1
  obtain ⟨j, rfl⟩ := oneBit_low_nibble h2 l2
  obtain ⟨k, rfl⟩ := oneBit_low_nibble h3 l3
  refine ⟨i, j, k, ?_, ?_, ?_, rfl⟩ <;> rintro rfl <;> simp_all

/-- The first and the last snapshot of a triplet have the enable bit clear. -/
theorem enable_clear (m : Masks) (v : Byte) : (v &&& ~~~m.en) &&& m.en = 0 := by
  ext i hi; simp

/-- The middle snapshot of a triplet has the enable bit set. -/
theorem enable_set (m : Masks) (v : Byte) : (v ||| m.en) &&& m.en = m.en := by
  ext i hi; simp; intro h; simp [h]

@[simp] theorem enc8_length (m : Masks) (b : Byte) (rs : RegSel) (bl : Bool) :
    (enc8 m b rs bl).length = 3 := rfl

@[simp] theorem enc4_length (m : Masks) (b : Byte) (rs : RegSel) (bl : Bool) :
    (enc4 m b rs bl).length = 6 := rfl

end Sys2Proof.Machine
end

