-- ==== Sys2Proof/Laws/Host.lean ====
section
/-! SUPPORT. The laws of macro expansions: what a macro's lines do to the host's attributes and to
its actions, line by line and one macro after another. -/

namespace Sys2Proof.Machine

@[simp] theorem AttrChange.apply_backlight (on : Bool) (a : DisplayAttrs) :
    (AttrChange.backlight on).apply a = { a with backlight := on } := rfl
@[simp] theorem AttrChange.apply_displayOn (on : Bool) (a : DisplayAttrs) :
    (AttrChange.displayOn on).apply a = { a with displayOn := on } := rfl
@[simp] theorem AttrChange.apply_cursorOn (on : Bool) (a : DisplayAttrs) :
    (AttrChange.cursorOn on).apply a = { a with cursorOn := on } := rfl
@[simp] theorem AttrChange.apply_blinkOn (on : Bool) (a : DisplayAttrs) :
    (AttrChange.blinkOn on).apply a = { a with blinkOn := on } := rfl

@[simp] theorem Macro.acts_nil : Macro.acts [] = [] := rfl
@[simp] theorem Macro.acts_assign (c : AttrChange) (m : Macro) :
    Macro.acts (.assign c :: m) = m.acts := rfl
@[simp] theorem Macro.acts_act (x : HostAct) (m : Macro) :
    Macro.acts (.act x :: m) = x :: m.acts := rfl

@[simp] theorem Macro.attrsAfter_nil (a : DisplayAttrs) : Macro.attrsAfter [] a = a := rfl
@[simp] theorem Macro.attrsAfter_assign (c : AttrChange) (m : Macro) (a : DisplayAttrs) :
    Macro.attrsAfter (.assign c :: m) a = m.attrsAfter (c.apply a) := rfl
@[simp] theorem Macro.attrsAfter_act (x : HostAct) (m : Macro) (a : DisplayAttrs) :
    Macro.attrsAfter (.act x :: m) a = m.attrsAfter a := rfl

@[simp] theorem Macro.acts_append (m n : Macro) : Macro.acts (m ++ n) = m.acts ++ n.acts := by
  induction m with
  | nil => rfl
  | cons l m ih => cases l <;> simp [ih]

@[simp] theorem Macro.attrsAfter_append (m n : Macro) (a : DisplayAttrs) :
    Macro.attrsAfter (m ++ n) a = n.attrsAfter (m.attrsAfter a) := by
  induction m generalizing a with
  | nil => rfl
  | cons l m ih => cases l <;> simp [ih]

/-- A macro whose lines are all actions changes no attribute. -/
theorem Macro.attrsAfter_of_actions (xs : List HostAct) (a : DisplayAttrs) :
    Macro.attrsAfter (xs.map MacroStep.act) a = a := by
  induction xs with
  | nil => rfl
  | cons x xs ih => simpa using ih

@[simp] theorem State.hostDoes_ph (s : State) (x : HostAct) : (s.hostDoes x).ph = s.ph := rfl
@[simp] theorem State.hostDoes_bl (s : State) (x : HostAct) : (s.hostDoes x).bl = s.bl := rfl
@[simp] theorem State.hostDoes_par (s : State) (x : HostAct) : (s.hostDoes x).par = s.par := rfl
@[simp] theorem State.hostDoes_trace (s : State) (x : HostAct) :
    (s.hostDoes x).trace = s.trace := rfl
@[simp] theorem State.hostDoes_host (s : State) (x : HostAct) :
    (s.hostDoes x).inp.host = [x] := rfl
@[simp] theorem State.hostDoes_rst (s : State) (x : HostAct) :
    (s.hostDoes x).inp.rst = s.inp.rst := rfl

end Sys2Proof.Machine
end

