-- ==== Sys2Proof/Laws/Memory.lean ====
section
/-! SUPPORT. The laws of the port space: reads and writes, and the canonical form. -/

namespace Sys2Proof.Machine.Memory

theorem read_write_same (m : Memory) (a : Nat) (v : Byte) : read (write m a v) a = some v := by
  induction m with
  | nil => simp [write, read]
  | cons c rest ih =>
    unfold write
    split
    · simp [read]
    · split
      · simp [read]
      · rename_i _ hne
        simp [read, ih, Ne.symm hne]

theorem read_write_other (m : Memory) {a b : Nat} (v : Byte) (h : b ≠ a) :
    read (write m a v) b = read m b := by
  induction m with
  | nil => simp [write, read, Ne.symm h]
  | cons c rest ih =>
    unfold write
    split
    · simp [read, Ne.symm h]
    · split
      · rename_i _ heq
        simp [read, Ne.symm h, ← heq]
      · simp [read, ih]

/-- A canonical port space holds nothing, or the one cell of `PORT`. -/
theorem wf_iff (m : Memory) : wf m = true ↔ m = [] ∨ ∃ v, m = [(Config.portKey, v)] := by
  constructor
  · intro h
    match m with
    | [] => exact .inl rfl
    | [(a, v)] =>
      right
      refine ⟨v, ?_⟩
      simp only [wf, rising, List.all_cons, List.all_nil, Bool.and_true, Bool.true_and,
        beq_iff_eq] at h
      rw [h]
    | (a, v) :: (b, w) :: rest =>
      exfalso
      simp only [wf, rising, List.all_cons, Bool.and_eq_true, decide_eq_true_eq,
        beq_iff_eq] at h
      omega
  · rintro (rfl | ⟨v, rfl⟩) <;> simp [wf, rising]

theorem wf_nil : wf [] = true := rfl

/-- The one memory operation of the block keeps the canonical form. -/
theorem wf_write_port {m : Memory} (v : Byte) (h : wf m = true) :
    wf (write m Config.portKey v) = true := by
  rcases (wf_iff m).1 h with rfl | ⟨w, rfl⟩
  · rfl
  · simp [write, wf, rising]

/-- In canonical form a write of `PORT` leaves exactly the byte written. -/
theorem write_port_of_wf {m : Memory} (v : Byte) (h : wf m = true) :
    write m Config.portKey v = [(Config.portKey, v)] := by
  rcases (wf_iff m).1 h with rfl | ⟨w, rfl⟩
  · rfl
  · simp [write]

end Sys2Proof.Machine.Memory
end

