-- ==== Sys2Proof/Laws/PerInstr.lean ====
section
/-! SUPPORT. Per-instruction families. `TableMatch`: the encoder's word carries the match bits of
the instruction's row in spec/opcode_table.json. -/

namespace Sys2Proof.Laws.TableMatch

/-- The row's mask (R83). -/
def mask : Instr → Word
  | .xfer8 _ _ _ => 0xFC00
  | .xfer4 _ _ _ => 0xFC00
  | .raw _ => 0xFF00
  | .setbl _ => 0xFFFE

/-- The row's match value (R83). -/
def value : Instr → Word
  | .xfer8 _ _ _ => 0x1000
  | .xfer4 _ _ _ => 0x2000
  | .raw _ => 0x3000
  | .setbl _ => 0x4000

/-- The word of `i` satisfies its row's test. -/
def Statement (i : Instr) : Prop := encode i &&& mask i = value i

theorem xfer8 (more : Bool) (rs : RegSel) (byte : Byte) : Statement (.xfer8 more rs byte) := by
  cases more <;> cases rs <;> revert byte <;> unfold Statement mask value encode formatX <;> decide

theorem xfer4 (more : Bool) (rs : RegSel) (byte : Byte) : Statement (.xfer4 more rs byte) := by
  cases more <;> cases rs <;> revert byte <;> unfold Statement mask value encode formatX <;> decide

theorem raw (byte : Byte) : Statement (.raw byte) := by
  revert byte; unfold Statement mask value encode; decide

theorem setbl (v : Bool) : Statement (.setbl v) := by
  cases v <;> rfl

end Sys2Proof.Laws.TableMatch
end

