-- ==== Sys2Proof/Laws/State.lean ====
section
/-! SUPPORT. What each operation of Machine/Ops.lean leaves in each field of the state: one lemma
per field and operation, true by rfl. -/

namespace Sys2Proof.Machine

/-! ## `emit` -/

@[simp] theorem State.emit_frame (s : State) (e : Event) : (s.emit e).frame = s.frame := rfl
@[simp] theorem State.emit_len (s : State) (e : Event) : (s.emit e).len = s.len := rfl
@[simp] theorem State.emit_idx (s : State) (e : Event) : (s.emit e).idx = s.idx := rfl
@[simp] theorem State.emit_ph (s : State) (e : Event) : (s.emit e).ph = s.ph := rfl
@[simp] theorem State.emit_more (s : State) (e : Event) : (s.emit e).more = s.more := rfl
@[simp] theorem State.emit_bl (s : State) (e : Event) : (s.emit e).bl = s.bl := rfl
@[simp] theorem State.emit_st (s : State) (e : Event) : (s.emit e).st = s.st := rfl
@[simp] theorem State.emit_count (s : State) (e : Event) : (s.emit e).count = s.count := rfl
@[simp] theorem State.emit_reason (s : State) (e : Event) : (s.emit e).reason = s.reason := rfl
@[simp] theorem State.emit_targetAddr (s : State) (e : Event) :
    (s.emit e).targetAddr = s.targetAddr := rfl
@[simp] theorem State.emit_par (s : State) (e : Event) : (s.emit e).par = s.par := rfl
@[simp] theorem State.emit_mem (s : State) (e : Event) : (s.emit e).mem = s.mem := rfl
@[simp] theorem State.emit_inp (s : State) (e : Event) : (s.emit e).inp = s.inp := rfl
@[simp] theorem State.emit_trace (s : State) (e : Event) : (s.emit e).trace = e :: s.trace := rfl

/-! ## `emitAll` -/

@[simp] theorem State.emitAll_frame (s : State) (es : List Event) :
    (s.emitAll es).frame = s.frame := rfl
@[simp] theorem State.emitAll_len (s : State) (es : List Event) : (s.emitAll es).len = s.len := rfl
@[simp] theorem State.emitAll_idx (s : State) (es : List Event) : (s.emitAll es).idx = s.idx := rfl
@[simp] theorem State.emitAll_ph (s : State) (es : List Event) : (s.emitAll es).ph = s.ph := rfl
@[simp] theorem State.emitAll_more (s : State) (es : List Event) :
    (s.emitAll es).more = s.more := rfl
@[simp] theorem State.emitAll_bl (s : State) (es : List Event) : (s.emitAll es).bl = s.bl := rfl
@[simp] theorem State.emitAll_st (s : State) (es : List Event) : (s.emitAll es).st = s.st := rfl
@[simp] theorem State.emitAll_count (s : State) (es : List Event) :
    (s.emitAll es).count = s.count := rfl
@[simp] theorem State.emitAll_reason (s : State) (es : List Event) :
    (s.emitAll es).reason = s.reason := rfl
@[simp] theorem State.emitAll_targetAddr (s : State) (es : List Event) :
    (s.emitAll es).targetAddr = s.targetAddr := rfl
@[simp] theorem State.emitAll_par (s : State) (es : List Event) : (s.emitAll es).par = s.par := rfl
@[simp] theorem State.emitAll_mem (s : State) (es : List Event) : (s.emitAll es).mem = s.mem := rfl
@[simp] theorem State.emitAll_inp (s : State) (es : List Event) : (s.emitAll es).inp = s.inp := rfl
@[simp] theorem State.emitAll_trace (s : State) (es : List Event) :
    (s.emitAll es).trace = es.reverse ++ s.trace := rfl

/-! ## `busWrite` -/

@[simp] theorem State.busWrite_frame (s : State) (v : Byte) (stop : Bool) :
    (s.busWrite v stop).frame = s.frame := rfl
@[simp] theorem State.busWrite_len (s : State) (v : Byte) (stop : Bool) :
    (s.busWrite v stop).len = s.len := rfl
@[simp] theorem State.busWrite_idx (s : State) (v : Byte) (stop : Bool) :
    (s.busWrite v stop).idx = s.idx := rfl
@[simp] theorem State.busWrite_ph (s : State) (v : Byte) (stop : Bool) :
    (s.busWrite v stop).ph = s.ph := rfl
@[simp] theorem State.busWrite_more (s : State) (v : Byte) (stop : Bool) :
    (s.busWrite v stop).more = s.more := rfl
@[simp] theorem State.busWrite_bl (s : State) (v : Byte) (stop : Bool) :
    (s.busWrite v stop).bl = s.bl := rfl
@[simp] theorem State.busWrite_st (s : State) (v : Byte) (stop : Bool) :
    (s.busWrite v stop).st = s.st := rfl
@[simp] theorem State.busWrite_count (s : State) (v : Byte) (stop : Bool) :
    (s.busWrite v stop).count = s.count := rfl
@[simp] theorem State.busWrite_reason (s : State) (v : Byte) (stop : Bool) :
    (s.busWrite v stop).reason = s.reason := rfl
@[simp] theorem State.busWrite_targetAddr (s : State) (v : Byte) (stop : Bool) :
    (s.busWrite v stop).targetAddr = s.targetAddr := rfl
@[simp] theorem State.busWrite_par (s : State) (v : Byte) (stop : Bool) :
    (s.busWrite v stop).par = s.par := rfl
@[simp] theorem State.busWrite_mem (s : State) (v : Byte) (stop : Bool) :
    (s.busWrite v stop).mem = s.mem.write Config.portKey v := rfl
@[simp] theorem State.busWrite_inp (s : State) (v : Byte) (stop : Bool) :
    (s.busWrite v stop).inp = s.inp := rfl
@[simp] theorem State.busWrite_trace (s : State) (v : Byte) (stop : Bool) :
    (s.busWrite v stop).trace = .busWrite v stop :: s.trace := rfl

/-! ## `pollReady` -/

@[simp] theorem State.pollReady_frame (s : State) : s.pollReady.frame = s.frame := rfl
@[simp] theorem State.pollReady_len (s : State) : s.pollReady.len = s.len := rfl
@[simp] theorem State.pollReady_idx (s : State) : s.pollReady.idx = s.idx := rfl
@[simp] theorem State.pollReady_ph (s : State) : s.pollReady.ph = s.ph := rfl
@[simp] theorem State.pollReady_more (s : State) : s.pollReady.more = s.more := rfl
@[simp] theorem State.pollReady_bl (s : State) : s.pollReady.bl = s.bl := rfl
@[simp] theorem State.pollReady_st (s : State) : s.pollReady.st = s.st := rfl
@[simp] theorem State.pollReady_count (s : State) : s.pollReady.count = s.count := rfl
@[simp] theorem State.pollReady_reason (s : State) : s.pollReady.reason = s.reason := rfl
@[simp] theorem State.pollReady_targetAddr (s : State) :
    s.pollReady.targetAddr = s.targetAddr := rfl
@[simp] theorem State.pollReady_par (s : State) : s.pollReady.par = s.par := rfl
@[simp] theorem State.pollReady_mem (s : State) : s.pollReady.mem = s.mem := rfl
@[simp] theorem State.pollReady_inp (s : State) :
    s.pollReady.inp = { s.inp with ready := s.inp.ready.tail, polls := s.inp.polls + 1 } := rfl
@[simp] theorem State.pollReady_trace (s : State) :
    s.pollReady.trace = .pollReady s.readyAnswer :: s.trace := rfl

/-! ## `pollQEmpty` -/

@[simp] theorem State.pollQEmpty_frame (s : State) : s.pollQEmpty.frame = s.frame := rfl
@[simp] theorem State.pollQEmpty_len (s : State) : s.pollQEmpty.len = s.len := rfl
@[simp] theorem State.pollQEmpty_idx (s : State) : s.pollQEmpty.idx = s.idx := rfl
@[simp] theorem State.pollQEmpty_ph (s : State) : s.pollQEmpty.ph = s.ph := rfl
@[simp] theorem State.pollQEmpty_more (s : State) : s.pollQEmpty.more = s.more := rfl
@[simp] theorem State.pollQEmpty_bl (s : State) : s.pollQEmpty.bl = s.bl := rfl
@[simp] theorem State.pollQEmpty_st (s : State) : s.pollQEmpty.st = s.st := rfl
@[simp] theorem State.pollQEmpty_count (s : State) : s.pollQEmpty.count = s.count := rfl
@[simp] theorem State.pollQEmpty_reason (s : State) : s.pollQEmpty.reason = s.reason := rfl
@[simp] theorem State.pollQEmpty_targetAddr (s : State) :
    s.pollQEmpty.targetAddr = s.targetAddr := rfl
@[simp] theorem State.pollQEmpty_par (s : State) : s.pollQEmpty.par = s.par := rfl
@[simp] theorem State.pollQEmpty_mem (s : State) : s.pollQEmpty.mem = s.mem := rfl
@[simp] theorem State.pollQEmpty_inp (s : State) :
    s.pollQEmpty.inp = { s.inp with qEmpty := s.inp.qEmpty.tail, polls := s.inp.polls + 1 } := rfl
@[simp] theorem State.pollQEmpty_trace (s : State) :
    s.pollQEmpty.trace = .pollQEmpty s.qEmptyAnswer :: s.trace := rfl

/-! ## `pollBusy` -/

@[simp] theorem State.pollBusy_frame (s : State) : s.pollBusy.frame = s.frame := rfl
@[simp] theorem State.pollBusy_len (s : State) : s.pollBusy.len = s.len := rfl
@[simp] theorem State.pollBusy_idx (s : State) : s.pollBusy.idx = s.idx := rfl
@[simp] theorem State.pollBusy_ph (s : State) : s.pollBusy.ph = s.ph := rfl
@[simp] theorem State.pollBusy_more (s : State) : s.pollBusy.more = s.more := rfl
@[simp] theorem State.pollBusy_bl (s : State) : s.pollBusy.bl = s.bl := rfl
@[simp] theorem State.pollBusy_st (s : State) : s.pollBusy.st = s.st := rfl
@[simp] theorem State.pollBusy_count (s : State) : s.pollBusy.count = s.count := rfl
@[simp] theorem State.pollBusy_reason (s : State) : s.pollBusy.reason = s.reason := rfl
@[simp] theorem State.pollBusy_targetAddr (s : State) : s.pollBusy.targetAddr = s.targetAddr := rfl
@[simp] theorem State.pollBusy_par (s : State) : s.pollBusy.par = s.par := rfl
@[simp] theorem State.pollBusy_mem (s : State) : s.pollBusy.mem = s.mem := rfl
@[simp] theorem State.pollBusy_inp (s : State) :
    s.pollBusy.inp = { s.inp with busy := s.inp.busy.tail, polls := s.inp.polls + 1 } := rfl
@[simp] theorem State.pollBusy_trace (s : State) :
    s.pollBusy.trace = .pollBusy s.busyAnswer :: s.trace := rfl

/-! ## `pollAbort` -/

@[simp] theorem State.pollAbort_frame (s : State) : s.pollAbort.frame = s.frame := rfl
@[simp] theorem State.pollAbort_len (s : State) : s.pollAbort.len = s.len := rfl
@[simp] theorem State.pollAbort_idx (s : State) : s.pollAbort.idx = s.idx := rfl
@[simp] theorem State.pollAbort_ph (s : State) : s.pollAbort.ph = s.ph := rfl
@[simp] theorem State.pollAbort_more (s : State) : s.pollAbort.more = s.more := rfl
@[simp] theorem State.pollAbort_bl (s : State) : s.pollAbort.bl = s.bl := rfl
@[simp] theorem State.pollAbort_st (s : State) : s.pollAbort.st = s.st := rfl
@[simp] theorem State.pollAbort_count (s : State) : s.pollAbort.count = s.count := rfl
@[simp] theorem State.pollAbort_reason (s : State) : s.pollAbort.reason = s.reason := rfl
@[simp] theorem State.pollAbort_targetAddr (s : State) :
    s.pollAbort.targetAddr = s.targetAddr := rfl
@[simp] theorem State.pollAbort_par (s : State) : s.pollAbort.par = s.par := rfl
@[simp] theorem State.pollAbort_mem (s : State) : s.pollAbort.mem = s.mem := rfl
@[simp] theorem State.pollAbort_inp (s : State) :
    s.pollAbort.inp = { s.inp with abort := s.inp.abort.tail, polls := s.inp.polls + 1 } := rfl
@[simp] theorem State.pollAbort_trace (s : State) :
    s.pollAbort.trace = .pollAbort s.abortAnswer :: s.trace := rfl

/-! ## `respond` -/

@[simp] theorem State.respond_frame (s : State) (st : Status) (n : Cnt) (r : AbortCode) :
    (s.respond st n r).frame = s.frame := rfl
@[simp] theorem State.respond_len (s : State) (st : Status) (n : Cnt) (r : AbortCode) :
    (s.respond st n r).len = s.len := rfl
@[simp] theorem State.respond_idx (s : State) (st : Status) (n : Cnt) (r : AbortCode) :
    (s.respond st n r).idx = s.idx := rfl
@[simp] theorem State.respond_ph (s : State) (st : Status) (n : Cnt) (r : AbortCode) :
    (s.respond st n r).ph = s.ph := rfl
@[simp] theorem State.respond_more (s : State) (st : Status) (n : Cnt) (r : AbortCode) :
    (s.respond st n r).more = s.more := rfl
@[simp] theorem State.respond_bl (s : State) (st : Status) (n : Cnt) (r : AbortCode) :
    (s.respond st n r).bl = s.bl := rfl
@[simp] theorem State.respond_st (s : State) (st : Status) (n : Cnt) (r : AbortCode) :
    (s.respond st n r).st = st := rfl
@[simp] theorem State.respond_count (s : State) (st : Status) (n : Cnt) (r : AbortCode) :
    (s.respond st n r).count = n := rfl
@[simp] theorem State.respond_reason (s : State) (st : Status) (n : Cnt) (r : AbortCode) :
    (s.respond st n r).reason = r := rfl
@[simp] theorem State.respond_targetAddr (s : State) (st : Status) (n : Cnt) (r : AbortCode) :
    (s.respond st n r).targetAddr = s.targetAddr := rfl
@[simp] theorem State.respond_par (s : State) (st : Status) (n : Cnt) (r : AbortCode) :
    (s.respond st n r).par = s.par := rfl
@[simp] theorem State.respond_mem (s : State) (st : Status) (n : Cnt) (r : AbortCode) :
    (s.respond st n r).mem = s.mem := rfl
@[simp] theorem State.respond_inp (s : State) (st : Status) (n : Cnt) (r : AbortCode) :
    (s.respond st n r).inp = s.inp := rfl
@[simp] theorem State.respond_trace (s : State) (st : Status) (n : Cnt) (r : AbortCode) :
    (s.respond st n r).trace = .respond st n r :: s.trace := rfl

/-! ## `raiseIllegal` -/

@[simp] theorem State.raiseIllegal_frame (s : State) : s.raiseIllegal.frame = s.frame := rfl
@[simp] theorem State.raiseIllegal_len (s : State) : s.raiseIllegal.len = s.len := rfl
@[simp] theorem State.raiseIllegal_idx (s : State) : s.raiseIllegal.idx = s.idx := rfl
@[simp] theorem State.raiseIllegal_ph (s : State) : s.raiseIllegal.ph = s.ph := rfl
@[simp] theorem State.raiseIllegal_more (s : State) : s.raiseIllegal.more = s.more := rfl
@[simp] theorem State.raiseIllegal_bl (s : State) : s.raiseIllegal.bl = s.bl := rfl
@[simp] theorem State.raiseIllegal_st (s : State) : s.raiseIllegal.st = .illegal := rfl
@[simp] theorem State.raiseIllegal_count (s : State) : s.raiseIllegal.count = 0 := rfl
@[simp] theorem State.raiseIllegal_reason (s : State) :
    s.raiseIllegal.reason = Config.abortNone := rfl
@[simp] theorem State.raiseIllegal_targetAddr (s : State) :
    s.raiseIllegal.targetAddr = s.targetAddr := rfl
@[simp] theorem State.raiseIllegal_par (s : State) : s.raiseIllegal.par = s.par := rfl
@[simp] theorem State.raiseIllegal_mem (s : State) : s.raiseIllegal.mem = s.mem := rfl
@[simp] theorem State.raiseIllegal_inp (s : State) : s.raiseIllegal.inp = s.inp := rfl
@[simp] theorem State.raiseIllegal_trace (s : State) :
    s.raiseIllegal.trace = .respond .illegal 0 Config.abortNone :: s.trace := rfl

/-! ## `raiseBusAbort` -/

@[simp] theorem State.raiseBusAbort_frame (s : State) (a : AbortCode) :
    (s.raiseBusAbort a).frame = s.frame := rfl
@[simp] theorem State.raiseBusAbort_len (s : State) (a : AbortCode) :
    (s.raiseBusAbort a).len = s.len := rfl
@[simp] theorem State.raiseBusAbort_idx (s : State) (a : AbortCode) :
    (s.raiseBusAbort a).idx = s.idx := rfl
@[simp] theorem State.raiseBusAbort_ph (s : State) (a : AbortCode) :
    (s.raiseBusAbort a).ph = .idle := rfl
@[simp] theorem State.raiseBusAbort_more (s : State) (a : AbortCode) :
    (s.raiseBusAbort a).more = s.more := rfl
@[simp] theorem State.raiseBusAbort_bl (s : State) (a : AbortCode) :
    (s.raiseBusAbort a).bl = s.bl := rfl
@[simp] theorem State.raiseBusAbort_st (s : State) (a : AbortCode) :
    (s.raiseBusAbort a).st = .busAbort := rfl
@[simp] theorem State.raiseBusAbort_count (s : State) (a : AbortCode) :
    (s.raiseBusAbort a).count = s.count := rfl
@[simp] theorem State.raiseBusAbort_reason (s : State) (a : AbortCode) :
    (s.raiseBusAbort a).reason = a := rfl
@[simp] theorem State.raiseBusAbort_targetAddr (s : State) (a : AbortCode) :
    (s.raiseBusAbort a).targetAddr = s.targetAddr := rfl
@[simp] theorem State.raiseBusAbort_par (s : State) (a : AbortCode) :
    (s.raiseBusAbort a).par = s.par := rfl
@[simp] theorem State.raiseBusAbort_mem (s : State) (a : AbortCode) :
    (s.raiseBusAbort a).mem = s.mem := rfl
@[simp] theorem State.raiseBusAbort_inp (s : State) (a : AbortCode) :
    (s.raiseBusAbort a).inp = s.inp := rfl
@[simp] theorem State.raiseBusAbort_trace (s : State) (a : AbortCode) :
    (s.raiseBusAbort a).trace = .respond .busAbort s.count a :: .clearAbort :: s.trace := rfl

/-! ## `startTransfer` -/

@[simp] theorem State.startTransfer_frame (s : State) (bs : List Byte) (more : Bool) :
    (s.startTransfer bs more).frame = s.frame.load bs := rfl
@[simp] theorem State.startTransfer_len (s : State) (bs : List Byte) (more : Bool) :
    (s.startTransfer bs more).len = BitVec.ofNat 3 bs.length := rfl
@[simp] theorem State.startTransfer_idx (s : State) (bs : List Byte) (more : Bool) :
    (s.startTransfer bs more).idx = 0 := rfl
@[simp] theorem State.startTransfer_ph (s : State) (bs : List Byte) (more : Bool) :
    (s.startTransfer bs more).ph = if s.ph = .idle then .addr else .rdy := rfl
@[simp] theorem State.startTransfer_more (s : State) (bs : List Byte) (more : Bool) :
    (s.startTransfer bs more).more = more := rfl
@[simp] theorem State.startTransfer_bl (s : State) (bs : List Byte) (more : Bool) :
    (s.startTransfer bs more).bl = s.bl := rfl
@[simp] theorem State.startTransfer_st (s : State) (bs : List Byte) (more : Bool) :
    (s.startTransfer bs more).st = .ok := rfl
@[simp] theorem State.startTransfer_count (s : State) (bs : List Byte) (more : Bool) :
    (s.startTransfer bs more).count = 0 := rfl
@[simp] theorem State.startTransfer_reason (s : State) (bs : List Byte) (more : Bool) :
    (s.startTransfer bs more).reason = Config.abortNone := rfl
@[simp] theorem State.startTransfer_targetAddr (s : State) (bs : List Byte) (more : Bool) :
    (s.startTransfer bs more).targetAddr = s.targetAddr := rfl
@[simp] theorem State.startTransfer_par (s : State) (bs : List Byte) (more : Bool) :
    (s.startTransfer bs more).par = s.par := rfl
@[simp] theorem State.startTransfer_mem (s : State) (bs : List Byte) (more : Bool) :
    (s.startTransfer bs more).mem = s.mem := rfl
@[simp] theorem State.startTransfer_inp (s : State) (bs : List Byte) (more : Bool) :
    (s.startTransfer bs more).inp = s.inp := rfl
@[simp] theorem State.startTransfer_trace (s : State) (bs : List Byte) (more : Bool) :
    (s.startTransfer bs more).trace = s.trace := rfl

/-! ## `resetBlock` -/

@[simp] theorem State.resetBlock_frame (s : State) : s.resetBlock.frame = Frame.zero := rfl
@[simp] theorem State.resetBlock_len (s : State) : s.resetBlock.len = 0 := rfl
@[simp] theorem State.resetBlock_idx (s : State) : s.resetBlock.idx = 0 := rfl
@[simp] theorem State.resetBlock_ph (s : State) : s.resetBlock.ph = .idle := rfl
@[simp] theorem State.resetBlock_more (s : State) : s.resetBlock.more = false := rfl
@[simp] theorem State.resetBlock_bl (s : State) : s.resetBlock.bl = false := rfl
@[simp] theorem State.resetBlock_st (s : State) : s.resetBlock.st = .ok := rfl
@[simp] theorem State.resetBlock_count (s : State) : s.resetBlock.count = 0 := rfl
@[simp] theorem State.resetBlock_reason (s : State) : s.resetBlock.reason = Config.abortNone := rfl
@[simp] theorem State.resetBlock_targetAddr (s : State) :
    s.resetBlock.targetAddr = s.targetAddr := rfl
@[simp] theorem State.resetBlock_par (s : State) : s.resetBlock.par = s.par := rfl
@[simp] theorem State.resetBlock_mem (s : State) : s.resetBlock.mem = s.mem := rfl
@[simp] theorem State.resetBlock_inp (s : State) : s.resetBlock.inp = s.inp := rfl
@[simp] theorem State.resetBlock_trace (s : State) : s.resetBlock.trace = s.trace := rfl

/-! ## `sampleRst` -/

@[simp] theorem State.sampleRst_frame (s : State) : s.sampleRst.frame = s.frame := rfl
@[simp] theorem State.sampleRst_len (s : State) : s.sampleRst.len = s.len := rfl
@[simp] theorem State.sampleRst_idx (s : State) : s.sampleRst.idx = s.idx := rfl
@[simp] theorem State.sampleRst_ph (s : State) : s.sampleRst.ph = s.ph := rfl
@[simp] theorem State.sampleRst_more (s : State) : s.sampleRst.more = s.more := rfl
@[simp] theorem State.sampleRst_bl (s : State) : s.sampleRst.bl = s.bl := rfl
@[simp] theorem State.sampleRst_st (s : State) : s.sampleRst.st = s.st := rfl
@[simp] theorem State.sampleRst_count (s : State) : s.sampleRst.count = s.count := rfl
@[simp] theorem State.sampleRst_reason (s : State) : s.sampleRst.reason = s.reason := rfl
@[simp] theorem State.sampleRst_targetAddr (s : State) :
    s.sampleRst.targetAddr = s.targetAddr := rfl
@[simp] theorem State.sampleRst_par (s : State) : s.sampleRst.par = s.par := rfl
@[simp] theorem State.sampleRst_mem (s : State) : s.sampleRst.mem = s.mem := rfl
@[simp] theorem State.sampleRst_inp (s : State) :
    s.sampleRst.inp = { s.inp with rst := s.inp.rst.tail } := rfl
@[simp] theorem State.sampleRst_trace (s : State) : s.sampleRst.trace = s.trace := rfl

/-! ## `dropHost` -/

@[simp] theorem State.dropHost_frame (s : State) : s.dropHost.frame = s.frame := rfl
@[simp] theorem State.dropHost_len (s : State) : s.dropHost.len = s.len := rfl
@[simp] theorem State.dropHost_idx (s : State) : s.dropHost.idx = s.idx := rfl
@[simp] theorem State.dropHost_ph (s : State) : s.dropHost.ph = s.ph := rfl
@[simp] theorem State.dropHost_more (s : State) : s.dropHost.more = s.more := rfl
@[simp] theorem State.dropHost_bl (s : State) : s.dropHost.bl = s.bl := rfl
@[simp] theorem State.dropHost_st (s : State) : s.dropHost.st = s.st := rfl
@[simp] theorem State.dropHost_count (s : State) : s.dropHost.count = s.count := rfl
@[simp] theorem State.dropHost_reason (s : State) : s.dropHost.reason = s.reason := rfl
@[simp] theorem State.dropHost_targetAddr (s : State) : s.dropHost.targetAddr = s.targetAddr := rfl
@[simp] theorem State.dropHost_par (s : State) : s.dropHost.par = s.par := rfl
@[simp] theorem State.dropHost_mem (s : State) : s.dropHost.mem = s.mem := rfl
@[simp] theorem State.dropHost_inp (s : State) :
    s.dropHost.inp = { s.inp with host := s.inp.host.tail } := rfl
@[simp] theorem State.dropHost_trace (s : State) : s.dropHost.trace = s.trace := rfl

end Sys2Proof.Machine
end

