-- ==== Sys2Proof/Laws/Step.lean ====
section
/-! SUPPORT. What one step can do, said once: the cases of `step`, of the accept of a command, and
of the clean sample. Proofs about a step cite these instead of unfolding it. -/

namespace Sys2Proof.Machine

/-- A step that answers a next state had admitted parameters, and was a reset or one transition. -/
theorem step_next_iff {s t : State} :
    step s = .next t ↔
      s.par.wf = true ∧
        ((s.rstAsserted = true ∧ t = s.sampleRst.resetBlock) ∨
          (s.rstAsserted = false ∧ transition s.sampleRst = .next t)) := by
  cases hw : s.par.wf <;> cases hr : s.rstAsserted <;>
    simp [step, resetOrTransition, hw, hr, eq_comm]

/-- With admitted parameters and no reset, a step is one transition. -/
theorem step_eq_transition {s : State} (hw : s.par.wf = true) (hr : s.rstAsserted = false) :
    step s = transition s.sampleRst := by
  simp [step, resetOrTransition, hw, hr]

@[simp] theorem sampleRst_readyAnswer (s : State) : s.sampleRst.readyAnswer = s.readyAnswer := rfl
@[simp] theorem sampleRst_qEmptyAnswer (s : State) :
    s.sampleRst.qEmptyAnswer = s.qEmptyAnswer := rfl
@[simp] theorem sampleRst_busyAnswer (s : State) : s.sampleRst.busyAnswer = s.busyAnswer := rfl
@[simp] theorem sampleRst_abortAnswer (s : State) : s.sampleRst.abortAnswer = s.abortAnswer := rfl
@[simp] theorem sampleRst_stopFlag (s : State) : s.sampleRst.stopFlag = s.stopFlag := rfl

/-- An abort answer fits `ABORT_W` bits. -/
theorem abortAnswer_lt (s : State) : s.abortAnswer < 2 ^ s.par.abortW :=
  Nat.mod_lt _ (by positivity)

/-- A port that is ready is in IDLE or HELD. -/
theorem ready_iff (p : Phase) : p.ready = true ↔ p = .idle ∨ p = .held := by
  cases p <;> simp [Phase.ready]

@[simp] theorem ready_idle : Phase.idle.ready = true := rfl
@[simp] theorem ready_held : Phase.held.ready = true := rfl

/-- What a command does at its accept: nothing while the port is not ready; otherwise it starts
a transfer with its snapshots, is refused (RAW in HELD), or writes the backlight latch. -/
theorem exec_cases (i : Instr) (s : State) :
    (s.ph.ready = false ∧ exec i s = .next s) ∨
    (s.ph.ready = true ∧ snapshots s.par.masks s.bl i ≠ [] ∧ (∀ b, i = .raw b → s.ph = .idle) ∧
      exec i s = .next (s.startTransfer (snapshots s.par.masks s.bl i) (moreOf i))) ∨
    (s.ph = .held ∧ (∃ b, i = .raw b) ∧ exec i s = .next s.raiseIllegal) ∨
    (s.ph.ready = true ∧ ∃ v, i = .setbl v ∧
      exec i s = .next ({ s with bl := v }.respond .ok 0 Config.abortNone)) := by
  cases hr : s.ph.ready
  · left
    cases i <;>
      simp [exec, execXfer8, execXfer4, execRaw, execSetbl, State.whenReady, hr]
  · right
    cases i with
    | xfer8 more rs byte =>
      left; simp [exec, execXfer8, State.whenReady, hr, snapshots, moreOf, enc8, tri]
    | xfer4 more rs byte =>
      left; simp [exec, execXfer4, State.whenReady, hr, snapshots, moreOf, enc4, tri]
    | raw byte =>
      rcases (ready_iff _).1 hr with hi | hh
      · left; simp [exec, execRaw, State.whenReady, hi, snapshots, moreOf, encRaw]
      · right; left; simp [exec, execRaw, State.whenReady, hh]
    | setbl v => right; right; simp [exec, execSetbl, State.whenReady, hr]

/-- What the block does with a ready port: nothing, a host wait, a command, or a refusal. -/
theorem phaseReady_cases (s : State) :
    (s.inp.host = [] ∧ phaseReady s = .next s) ∨
    (∃ us rest, s.inp.host = .wait us :: rest ∧
      phaseReady s = .next (s.dropHost.emit (.hostWait us))) ∨
    (∃ w rest i, s.inp.host = .present w :: rest ∧ decode w = .ok i ∧
      phaseReady s = exec i s.dropHost) ∨
    (∃ w rest r, s.inp.host = .present w :: rest ∧ decode w = .error r ∧
      phaseReady s = .next s.dropHost.raiseIllegal) := by
  unfold phaseReady
  split
  · rename_i h; exact .inl ⟨h, rfl⟩
  · rename_i us rest h; exact .inr (.inl ⟨us, rest, h, rfl⟩)
  · rename_i w rest h
    split
    · rename_i i hd; exact .inr (.inr (.inl ⟨w, rest, i, h, hd, rfl⟩))
    · rename_i r hd; exact .inr (.inr (.inr ⟨w, rest, r, h, hd, rfl⟩))

/-- What a clean sample leads to: the next snapshot, an open end, the drain, or no transition. -/
theorem chkClean_cases (s : State) :
    (s.idx.toNat + 1 < s.len.toNat ∧
      chkClean s = .next { s with idx := s.idx + 1, ph := .rdy }) ∨
    (s.idx.toNat + 1 = s.len.toNat ∧ s.more = true ∧
      chkClean s =
        .next { s.respond .ok s.len Config.abortNone with idx := s.idx + 1, ph := .held }) ∨
    (s.idx.toNat + 1 = s.len.toNat ∧ s.more = false ∧
      chkClean s = .next { s with idx := s.idx + 1, ph := .drainQ }) ∨
    (s.len.toNat < s.idx.toNat + 1 ∧ chkClean s = .fault .noTransition) := by
  unfold chkClean
  split
  · rename_i h; exact .inl ⟨h, rfl⟩
  · rename_i h
    split
    · rename_i he
      cases hm : s.more <;> simp [he]
    · right; right; right; exact ⟨by omega, rfl⟩

/-- What a transition of the transfer engine can answer, phase by phase (R137). -/
theorem transition_busy_cases {s t : State} (h : transition s = .next t)
    (hb : s.ph.ready = false) :
    (s.ph = .addr ∧ t = { s.emitAll (prologueEvents s.par s.targetAddr) with ph := .rdy }) ∨
    (s.ph = .rdy ∧ s.readyAnswer = false ∧ t = s.pollReady) ∨
    (s.ph = .rdy ∧ s.readyAnswer = true ∧ t = { s.pollReady with ph := .wr }) ∨
    (s.ph = .wr ∧ ∃ v, s.frame.get? s.idx.toNat = some v ∧
      t = { s.busWrite v s.stopFlag with count := s.count + 1, ph := .settle }) ∨
    (s.ph = .settle ∧ t = { s.emit (.wait (settleUs s.par s.idx.toNat)) with ph := .chk }) ∨
    (s.ph = .chk ∧ s.abortAnswer = Config.abortNone ∧ chkClean s.pollAbort = .next t) ∨
    ((s.ph = .chk ∨ s.ph = .chkF) ∧ s.abortAnswer ≠ Config.abortNone ∧
      t = s.pollAbort.raiseBusAbort s.abortAnswer) ∨
    (s.ph = .drainQ ∧ s.qEmptyAnswer = false ∧ t = s.pollQEmpty) ∨
    (s.ph = .drainQ ∧ s.qEmptyAnswer = true ∧ t = { s.pollQEmpty with ph := .drainB }) ∨
    (s.ph = .drainB ∧ s.busyAnswer = true ∧ t = s.pollBusy) ∨
    (s.ph = .drainB ∧ s.busyAnswer = false ∧ t = { s.pollBusy with ph := .chkF }) ∨
    (s.ph = .chkF ∧ s.abortAnswer = Config.abortNone ∧
      t = { s.pollAbort.respond .ok s.len Config.abortNone with ph := .idle }) := by
  unfold transition at h
  cases hp : s.ph <;> rw [hp] at h hb <;> simp only [Phase.ready, reduceCtorEq] at hb <;>
    simp only [reduceCtorEq, false_and, true_and, false_or, or_false, or_true] at *
  · simp only [phaseAddr, Host.Outcome.next.injEq] at h
    exact h.symm
  · simp only [phaseRdy, Host.Outcome.next.injEq] at h
    split at h
    · rename_i hr; exact .inr ⟨hr, h.symm⟩
    · rename_i hr; exact .inl ⟨by simpa using hr, h.symm⟩
  · unfold phaseWr at h
    split at h
    · rename_i v hv
      simp only [Host.Outcome.next.injEq] at h
      exact ⟨v, hv, h.symm⟩
    · simp at h
  · simp only [phaseSettle, Host.Outcome.next.injEq] at h
    exact h.symm
  · unfold phaseChk at h
    split at h
    · rename_i ha; exact .inl ⟨ha, h⟩
    · rename_i ha
      simp only [Host.Outcome.next.injEq] at h
      exact .inr ⟨ha, h.symm⟩
  · simp only [phaseDrainQ, Host.Outcome.next.injEq] at h
    split at h
    · rename_i hr; exact .inr ⟨hr, h.symm⟩
    · rename_i hr; exact .inl ⟨by simpa using hr, h.symm⟩
  · simp only [phaseDrainB, Host.Outcome.next.injEq] at h
    split at h
    · rename_i hr; exact .inl ⟨hr, h.symm⟩
    · rename_i hr; exact .inr ⟨by simpa using hr, h.symm⟩
  · unfold phaseChkF at h
    split at h
    · rename_i ha
      simp only [Host.Outcome.next.injEq] at h
      exact .inr ⟨ha, h.symm⟩
    · rename_i ha
      simp only [Host.Outcome.next.injEq] at h
      exact .inl ⟨ha, h.symm⟩

/-- With a ready port a transition is the host's next action. -/
theorem transition_ready {s : State} (h : s.ph.ready = true) : transition s = phaseReady s := by
  rcases (ready_iff _).1 h with hp | hp <;> simp [transition, hp]

/-- Everything a step that answers a next state can be: a reset; with a ready port the host's
next action, that is nothing, a host wait, the start of a transfer, SETBL, or a refusal; in a busy
phase a transition of the transfer engine, for which see `transition_busy_cases`. -/
theorem step_cases {s t : State} (h : step s = .next t) :
    (s.rstAsserted = true ∧ t = s.sampleRst.resetBlock) ∨
    (s.rstAsserted = false ∧ s.ph.ready = true ∧
      ((s.inp.host = [] ∧ t = s.sampleRst) ∨
        (∃ us rest, s.inp.host = .wait us :: rest ∧
          t = s.sampleRst.dropHost.emit (.hostWait us)) ∨
        (∃ w rest i, s.inp.host = .present w :: rest ∧ decode w = .ok i ∧
          snapshots s.par.masks s.bl i ≠ [] ∧ (∀ b, i = .raw b → s.ph = .idle) ∧
          t = s.sampleRst.dropHost.startTransfer (snapshots s.par.masks s.bl i) (moreOf i)) ∨
        (∃ w rest v, s.inp.host = .present w :: rest ∧ decode w = .ok (.setbl v) ∧
          t = { s.sampleRst.dropHost with bl := v }.respond .ok 0 Config.abortNone) ∨
        (∃ w rest, s.inp.host = .present w :: rest ∧
          ((∃ r, decode w = .error r) ∨ s.ph = .held ∧ ∃ b, decode w = .ok (.raw b)) ∧
          t = s.sampleRst.dropHost.raiseIllegal))) ∨
    (s.rstAsserted = false ∧ s.ph.ready = false ∧ transition s.sampleRst = .next t) := by
  obtain ⟨_, ⟨hr, rfl⟩ | ⟨hr, h⟩⟩ := step_next_iff.1 h
  · exact .inl ⟨hr, rfl⟩
  · cases hp : s.ph.ready
    · exact .inr (.inr ⟨hr, rfl, h⟩)
    · refine .inr (.inl ⟨hr, rfl, ?_⟩)
      rw [transition_ready (s := s.sampleRst) hp] at h
      rcases phaseReady_cases s.sampleRst with ⟨hh, e⟩ | ⟨us, rest, hh, e⟩ |
        ⟨w, rest, i, hh, hd, e⟩ | ⟨w, rest, r, hh, hd, e⟩ <;> rw [e] at h
      · exact .inl ⟨hh, (Host.Outcome.next.inj h).symm⟩
      · exact .inr (.inl ⟨us, rest, hh, (Host.Outcome.next.inj h).symm⟩)
      · rcases exec_cases i s.sampleRst.dropHost with ⟨hn, he⟩ | ⟨_, hs, hi, he⟩ |
          ⟨hheld, ⟨b, rfl⟩, he⟩ | ⟨_, v, rfl, he⟩ <;> rw [he] at h
        · exact absurd (hp.symm.trans hn) (by decide)
        · exact .inr (.inr (.inl ⟨w, rest, i, hh, hd, hs, hi, (Host.Outcome.next.inj h).symm⟩))
        · exact .inr (.inr (.inr (.inr
            ⟨w, rest, hh, .inr ⟨hheld, b, hd⟩, (Host.Outcome.next.inj h).symm⟩)))
        · exact .inr (.inr (.inr (.inl ⟨w, rest, v, hh, hd, (Host.Outcome.next.inj h).symm⟩)))
      · exact .inr (.inr (.inr (.inr
          ⟨w, rest, hh, .inl ⟨r, hd⟩, (Host.Outcome.next.inj h).symm⟩)))

/-- A run of one step more: the step, then the rest. -/
theorem run_next {s t : State} (h : step s = .next t) (n : Nat) :
    Host.Core.run Sys2Proof.core (n + 1) s = Host.Core.run Sys2Proof.core n t := by
  simp only [Host.Core.run, Sys2Proof.core, h]

end Sys2Proof.Machine
end

