-- ==== Sys2Proof/Tests/Slice0.lean ====
section
/-! SUPPORT. Tests: words and frames written out from the spec, the smoke tests of the
well-formedness checks, single steps, and a witness for the hypotheses of every statement. The
expected values are those of spec/95_test_vectors.md unless a docstring says otherwise. -/

open Sys2Proof Sys2Proof.Machine Sys2Proof.Safety

namespace Sys2Proof.Tests

/-! ## States -/

/-- The masks of the vectors. -/
def masks : Masks := { rs := 0x01, en := 0x04, bl := 0x08 }

/-- The frame of `XFER4 D, 0x48` with the backlight on. -/
def frameH : Frame := { f0 := 0x49, f1 := 0x4D, f2 := 0x49, f3 := 0x89, f4 := 0x8D, f5 := 0x89 }

/-- A command of `len` snapshots in phase `ph` at index `idx`, with a clean environment. -/
def inPhase (ph : Phase) (len idx count : Cnt) (more : Bool) : State :=
  { State.reset with
    frame := frameH, len := len, idx := idx, count := count, ph := ph, more := more, bl := true
    inp :=
      { Inputs.none with
        ready := [true], qEmpty := [true], busy := [false], abort := [0] } }

/-- The same with the given abort answer. -/
def withAbort (s : State) (a : AbortCode) : State := { s with inp := { s.inp with abort := [a] } }

/-- The host presents `w`. -/
def presenting (s : State) (w : Word) : State :=
  { s with inp := { s.inp with host := [.present w] } }

/-- The state an outcome answers, or the one after reset. -/
def after : Host.Outcome State Fault Refusal → State
  | .next t => t
  | .fault _ => State.reset
  | .refused _ => State.reset

/-! ## Decoding (spec/95_test_vectors.md 2.5), words written out bit by bit -/

theorem test_decode_xfer8 :
    decode 0b0001_00_0_0_00110000 = .ok (.xfer8 false .instruction 0x30) := by decide
theorem test_decode_xfer8_more_data :
    decode 0b0001_00_1_1_11111111 = .ok (.xfer8 true .data 0xFF) := by decide
theorem test_decode_xfer4 : decode 0b0010_00_0_1_01001000 = .ok (.xfer4 false .data 0x48) := by
  decide
theorem test_decode_xfer4_more :
    decode 0b0010_00_1_0_00101000 = .ok (.xfer4 true .instruction 0x28) := by decide
theorem test_decode_raw : decode 0b0011_0000_11111111 = .ok (.raw 0xFF) := by decide
theorem test_decode_setbl : decode 0b0100_00000000000_1 = .ok (.setbl true) := by decide
theorem test_decode_reserved :
    decode 0x0000 = .error .badOp ∧ decode 0xFFFF = .error .badOp ∧
    decode 0x1430 = .error .z2NotZero ∧ decode 0x2800 = .error .z2NotZero ∧
    decode 0x3100 = .error .z4NotZero ∧ decode 0x4002 = .error .z11NotZero := by decide
theorem test_decodeTableWord :
    decodeTableWord 16 0x2148 = some (.xfer4 false .data 0x48) ∧
    decodeTableWord 16 0x5000 = none ∧ decodeTableWord 24 0x4001 = none := by decide

/-! ## Well-formedness smoke tests: what each check refuses (spec/00_scope.md R9, R10) -/

theorem test_masks_default : masks.wf = true := by decide
theorem test_masks_two_bits : { masks with rs := 0x03 : Masks }.wf = false := by decide
theorem test_masks_zero : { masks with en := 0x00 : Masks }.wf = false := by decide
theorem test_masks_two_bits_bl : { masks with bl := 0x0A : Masks }.wf = false := by decide
theorem test_masks_equal : { masks with bl := 0x04 : Masks }.wf = false := by decide
theorem test_masks_equal_rs : { masks with rs := 0x08 : Masks }.wf = false := by decide
theorem test_masks_high_nibble : { masks with rs := 0x10 : Masks }.wf = false := by decide
theorem test_params_granularity :
    { Config.defaultParams with tGranUs := 0 : Params }.wf = false := by decide

/-- The host configuration of program P1. -/
def twoLines : HostConfig := HostConfig.default 2 16 8 .increment .off

/-- The witness of DefaultAttributesStartAsGiven too: an admitted configuration. -/
theorem test_host_lines : twoLines.wf = true ∧ { twoLines with lines := 3 }.wf = false := by decide
/-- R170: "both start at 0". -/
theorem test_host_backlight : { twoLines with backlightInit := true }.wf = false := by decide

/-- Commands have no ill-formed operand (R204). -/
theorem test_instr_wf : (Instr.xfer8 true .data 0xFF).wf = true := by decide

/-! ## Frames (spec/95_test_vectors.md 2.2 to 2.4) -/

theorem test_enc8_wake : enc8 masks 0x30 .instruction false = [0x30, 0x34, 0x30] := by decide
theorem test_enc8_low_nibble : enc8 masks 0x3F .instruction false = [0x3B, 0x3F, 0x3B] := by decide
theorem test_enc4_nibble_order :
    enc4 masks 0xA5 .data false = [0xA1, 0xA5, 0xA1, 0x51, 0x55, 0x51] := by decide
theorem test_enc4_backlight :
    enc4 masks 0x5A .instruction true = [0x58, 0x5C, 0x58, 0xA8, 0xAC, 0xA8] := by decide
theorem test_decode4 : decode4 [0xA1, 0xA5, 0xA1, 0x51, 0x55, 0x51] = 0xA5 := by decide
theorem test_decode8 : decode8 [0x49, 0x4D, 0x49] = 0x40 := by decide

/-! ## Commands at their accept -/

theorem test_xfer8_accept :
    exec (.xfer8 false .instruction 0x30) State.reset = .next
      { State.reset with
        frame := { Frame.zero with f0 := 0x30, f1 := 0x34, f2 := 0x30 }, len := 3, ph := .addr } := by
  rfl
theorem test_xfer4_accept_in_held :
    let s := { State.reset with bl := true, ph := .held }
    (after (exec (.xfer4 false .data 0x48) s)).frame = frameH ∧
    (after (exec (.xfer4 false .data 0x48) s)).ph = .rdy := by decide
theorem test_raw_accept :
    (after (exec (.raw 0x00) { State.reset with bl := true })).len = 1 ∧
    (after (exec (.raw 0x00) { State.reset with bl := true })).frame.f0 = 0x00 := by decide
theorem test_raw_in_held :
    (after (exec (.raw 0x00) (inPhase .held 6 6 6 true))).ph = .held ∧
    (after (exec (.raw 0x00) (inPhase .held 6 6 6 true))).st = .illegal ∧
    (after (exec (.raw 0x00) (inPhase .held 6 6 6 true))).trace = [.respond .illegal 0 0] := by decide
theorem test_setbl :
    exec (.setbl true) State.reset =
      .next { State.reset with bl := true, trace := [.respond .ok 0 0] } := by rfl

/-! ## Steps of the transfer engine -/

/-- The stop flag is on the last write and on no other (2.8). -/
theorem test_write_last :
    (after (step (inPhase .wr 6 5 5 false))).trace = [.busWrite 0x89 true] := by decide
theorem test_write_third :
    (after (step (inPhase .wr 6 2 2 false))).trace = [.busWrite 0x49 false] := by decide
theorem test_write_more :
    (after (step (inPhase .wr 6 5 5 true))).trace = [.busWrite 0x89 false] := by decide
/-- The settle waits by index (2.7). -/
theorem test_settle_waits :
    (after (step (inPhase .settle 6 1 2 false))).trace = [.wait 1] ∧
    (after (step (inPhase .settle 6 2 3 false))).trace = [.wait 37] := by decide
theorem test_prologue :
    (after (step (inPhase .addr 6 0 0 false))).trace = [.critExit, .setTarget 0, .critEnter] := by
  decide
/-- The row "after byte 1" of 2.9. -/
theorem test_abort_after_byte_one :
    (after (step (withAbort (inPhase .chk 6 1 2 false) 1))).trace =
      [.respond .busAbort 2 1, .clearAbort, .pollAbort 1] ∧
    (after (step (withAbort (inPhase .chk 6 1 2 false) 1))).idx = 1 ∧
    (after (step (withAbort (inPhase .chk 6 1 2 false) 1))).ph = .idle := by decide
/-- The row "after the drain (CHKF)" of 2.9. -/
theorem test_abort_after_drain :
    (after (step (withAbort (inPhase .chkF 6 6 6 false) 7))).count = 6 ∧
    (after (step (withAbort (inPhase .chkF 6 6 6 false) 7))).reason = 7 := by decide

/-- The trace of `XFER8 I, 0x30` from reset (2.6). -/
theorem test_trace_xfer8 :
    cleanTrace Config.defaultParams 0 true false (enc8 masks 0x30 .instruction false) =
      [.critEnter, .setTarget 0, .critExit,
        .pollReady true, .busWrite 0x30 false, .wait 1, .pollAbort 0,
        .pollReady true, .busWrite 0x34 false, .wait 1, .pollAbort 0,
        .pollReady true, .busWrite 0x30 true, .wait 37, .pollAbort 0,
        .pollQEmpty true, .pollBusy false, .pollAbort 0, .respond .ok 3 0] := by decide
/-- The trace of program P5's first command. -/
theorem test_trace_abort :
    abortedTrace Config.defaultParams 0 true false (enc4 masks 0x48 .data true) 1 0x4D 1 =
      [.critEnter, .setTarget 0, .critExit,
        .pollReady true, .busWrite 0x49 false, .wait 1, .pollAbort 0,
        .pollReady true, .busWrite 0x4D false, .wait 1, .pollAbort 1,
        .clearAbort, .respond .busAbort 2 1] := by decide

/-! ## Host macros -/

/-- The words and waits of program P1. -/
theorem test_init :
    (initSequence twoLines (DisplayAttrs.start twoLines)).acts =
      [.wait 50000, .present 0x3000, .wait 200, .present 0x1030, .wait 4500, .present 0x1030,
        .wait 4500, .present 0x1030, .wait 200, .present 0x1020, .wait 200, .present 0x2228,
        .present 0x2008, .wait 200, .present 0x2001, .wait 2000, .present 0x2006, .wait 200,
        .present 0x4001, .present 0x200C, .wait 200] := by decide
/-- E1 and E5. -/
theorem test_setCursor :
    setCursorAt twoLines 2 1 = [.act (.present 0x20C2)] ∧ cursorCommand twoLines 0 255 = 0xC0 ∧
    cursorCommand { twoLines with lines := 1 } 5 1 = 0x85 := by decide
/-- E2. -/
theorem test_print : (printBytes [0x48, 0x49]).acts = [.present 0x2148, .present 0x2149] := by
  decide
/-- E9 and program P4. -/
theorem test_createChar :
    glyphCommand HostConst.table 3 = 0x58 ∧ glyphCommand HostConst.table 8 = 0x40 ∧
    glyphCommand HostConst.table 255 = 0x78 := by decide
/-- E4, the last row. -/
theorem test_display_command :
    composeDisplayCommand HostConst.table
      { DisplayAttrs.start twoLines with cursorOn := true, blinkOn := true } = 0x0F := by decide
theorem test_assembler : asmInstr (.xfer4 true .instruction 0x28) = "XFER4 I, 40, MORE" := by decide

/-! ## Witnesses: states and operands that meet the hypotheses of each statement, clause by clause -/

/-- EncodingLaws, DecodeRecoversTheByte, GlyphBytesAreSentAsGiven: masks other than the default. -/
theorem test_witness_masks : { rs := 0x02, en := 0x08, bl := 0x01 : Masks }.wf = true := by decide
/-- DecodeRecoversTheByte, at the last snapshot of each triplet. -/
theorem test_witness_decode4 :
    masks.wf = true ∧ (enc4 masks 0xA5 .data false)[2]? = some 0xA1 ∧
    (enc4 masks 0xA5 .data false)[3]? = some 0x51 ∧
    (enc4 masks 0xA5 .data false)[5]? = some 0x51 := by decide
/-- WideLowNibbleActsOnControlLines, at the first, middle and last snapshot. -/
theorem test_witness_wide :
    masks.wf = true ∧ (enc8 masks 0x3F .instruction false)[0]? = some 0x3B ∧
    (enc8 masks 0x3F .instruction false)[1]? = some 0x3F ∧
    (enc8 masks 0x3F .instruction false)[2]? = some 0x3B := by decide
/-- FrameClocksNibblesInOrder. -/
theorem test_witness_edges : masks.wf = true ∧ (0xFB : Byte) &&& masks.en = 0 := by decide
/-- Xfer8BuildsItsFrame, Xfer4BuildsItsFrame, SetblWritesOnlyTheLatch, RawTakesItsByteAsGiven,
RawInHeldIsIllegal: both ready phases. -/
theorem test_witness_ready :
    PortReady State.reset ∧ State.reset.ph = .idle ∧ PortReady (inPhase .held 6 6 6 true) ∧
    (inPhase .held 6 6 6 true).ph = .held := by decide
/-- BusyPortAcceptsNothing. -/
theorem test_witness_busy : ¬ PortReady (inPhase .wr 6 0 0 false) := by decide
/-- ExecFrame, its clauses for XFER8, RAW and SETBL. -/
theorem test_witness_exec_frame :
    exec (.xfer8 true .data 0xFF) State.reset =
      .next (after (exec (.xfer8 true .data 0xFF) State.reset)) ∧
    (after (exec (.xfer8 true .data 0xFF) State.reset)).ph ≠ State.reset.ph ∧
    exec (.raw 0xFF) State.reset = .next (after (exec (.raw 0xFF) State.reset)) ∧
    exec (.setbl true) State.reset = .next (after (exec (.setbl true) State.reset)) :=
  ⟨rfl, by decide, rfl, rfl⟩
/-- StepRunsTheDecodedCommand, in both ready phases. -/
theorem test_witness_step :
    Running (presenting State.reset 0x1030) ∧ PortReady (presenting State.reset 0x1030) ∧
    (presenting State.reset 0x1030).inp.host = [.present 0x1030] ∧
    decode 0x1030 = .ok (.xfer8 false .instruction 0x30) ∧
    Running (presenting (inPhase .held 6 6 6 true) 0x1030) ∧
    PortReady (presenting (inPhase .held 6 6 6 true) 0x1030) := by decide
/-- PlacedWordRunsNext. -/
theorem test_witness_placed :
    (inPhase .rdy 6 0 0 false).par.wf = true ∧ 16 ≤ 16 ∧
    decodeTableWord 16 0x4001 = some (.setbl true) := by decide
/-- ReservedWordIsAnsweredIllegal. -/
theorem test_witness_reserved :
    Running (presenting State.reset 0x4002) ∧ PortReady (presenting State.reset 0x4002) ∧
    (presenting State.reset 0x4002).inp.host = [.present 0x4002] ∧
    decode 0x4002 = .error .z11NotZero := by decide
/-- BlockRestsWithoutACommand, both clauses. -/
theorem test_witness_rest :
    Running State.reset ∧ PortReady State.reset ∧ State.reset.inp.host = [] ∧
    (State.reset.hostDoes (.wait 200)).inp.host = [.wait 200] ∧
    Running (State.reset.hostDoes (.wait 200)) := by decide
/-- PrologueSelectsTheTarget, with and without `ENABLE_TOGGLE`. -/
theorem test_witness_prologue :
    Running (inPhase .addr 6 0 0 false) ∧ (inPhase .addr 6 0 0 false).ph = .addr ∧
    Running
      { inPhase .addr 6 0 0 false with
        par := { Config.defaultParams with enableToggle := true } } := by decide
/-- ReadyIsPolledUntilTrue. -/
theorem test_witness_rdy :
    Running (inPhase .rdy 6 0 0 false) ∧ (inPhase .rdy 6 0 0 false).ph = .rdy ∧
    (inPhase .rdy 6 0 0 false).inp.ready = true :: [] := by decide
/-- PollsGetTheListedAnswers, its four clauses. -/
theorem test_witness_answers :
    (inPhase .rdy 6 0 0 false).inp.ready = true :: [] ∧
    (inPhase .rdy 6 0 0 false).inp.qEmpty = true :: [] ∧
    (inPhase .rdy 6 0 0 false).inp.busy = false :: [] ∧
    (inPhase .rdy 6 0 0 false).inp.abort = 0 :: [] := by decide
/-- WriteHandsOverOneSnapshot, PortHoldsTheByteHandedOver, at the first and the last snapshot. -/
theorem test_witness_write :
    Running (inPhase .wr 6 0 0 false) ∧ (inPhase .wr 6 0 0 false).ph = .wr ∧
    (inPhase .wr 6 0 0 false).frame.get? 0 = some 0x49 ∧
    Running (inPhase .wr 6 5 5 false) ∧ (inPhase .wr 6 5 5 false).frame.get? 5 = some 0x89 := by
  decide
/-- SettleWaitsByPosition, at both sides of a triplet's end. -/
theorem test_witness_settle :
    Running (inPhase .settle 6 2 3 false) ∧ (inPhase .settle 6 2 3 false).ph = .settle ∧
    Running (inPhase .settle 6 3 4 false) ∧ (inPhase .settle 6 3 4 false).ph = .settle := by decide
/-- RiseWaitIsTheLeastMultiple. -/
theorem test_witness_rise :
    0 < Config.defaultParams.tGranUs ∧ riseWaitUs Config.defaultParams = 1 ∧
    Config.defaultParams.tRiseNs ≤ 1000 * (1 * Config.defaultParams.tGranUs) := by decide
/-- CleanSampleGoesOn, its three clauses. -/
theorem test_witness_clean_sample :
    Running (inPhase .chk 6 0 1 false) ∧ (inPhase .chk 6 0 1 false).ph = .chk ∧
    (inPhase .chk 6 0 1 false).abortAnswer = Config.abortNone ∧
    (inPhase .chk 6 4 5 false).idx.toNat + 1 < (inPhase .chk 6 4 5 false).len.toNat ∧
    (inPhase .chk 6 5 6 true).idx.toNat + 1 = (inPhase .chk 6 5 6 true).len.toNat ∧
    (inPhase .chk 6 5 6 true).more = true ∧ (inPhase .chk 6 5 6 false).more = false ∧
    (inPhase .chk 6 5 6 false).idx.toNat + 1 = (inPhase .chk 6 5 6 false).len.toNat := by decide
/-- AbortSampleExits, from CHK and from CHKF. -/
theorem test_witness_abort :
    Running (withAbort (inPhase .chk 6 5 6 true) 1) ∧
    (withAbort (inPhase .chk 6 5 6 true) 1).abortAnswer ≠ Config.abortNone ∧
    Running (withAbort (inPhase .chkF 6 6 6 false) 1) ∧
    (withAbort (inPhase .chkF 6 6 6 false) 1).abortAnswer ≠ Config.abortNone := by decide
/-- DrainPollsQueueThenBus, CleanLastSampleCloses. -/
theorem test_witness_drain :
    Running (inPhase .drainQ 6 6 6 false) ∧ (inPhase .drainQ 6 6 6 false).ph = .drainQ ∧
    Running (inPhase .drainB 6 6 6 false) ∧ (inPhase .drainB 6 6 6 false).ph = .drainB ∧
    Running (inPhase .chkF 6 6 6 false) ∧ (inPhase .chkF 6 6 6 false).ph = .chkF ∧
    (inPhase .chkF 6 6 6 false).abortAnswer = Config.abortNone := by decide
/-- ResetInputWins, in a busy phase. -/
theorem test_witness_rst :
    { inPhase .wr 6 0 0 false with inp := { Inputs.none with rst := [true] } }.rstAsserted = true ∧
    (inPhase .wr 6 0 0 false).par.wf = true := by decide
/-- BadParametersAreRejected, both clauses. -/
theorem test_witness_bad_parameters :
    { Config.defaultParams with masks := { masks with rs := 0x10 } : Params }.wf = false ∧
    State.reset.par.wf = true := by decide
/-- StepFrame, StepKeepsInvariant, InvariantStateAlwaysSteps, StepKeepsBusDiscipline,
StepKeepsPortSpaceForm, HistoryIsNotRead, PhaseMovesAreThoseOfTheTable: the step that writes the
third snapshot of a frame, after the events that led there. -/
def thirdWrite : State :=
  { inPhase .wr 6 2 2 false with
    trace :=
      [.pollReady true, .pollAbort 0, .wait 1, .busWrite 0x4D false, .pollReady true, .pollAbort 0,
        .wait 1, .busWrite 0x49 false, .pollReady true, .critExit, .setTarget 0, .critEnter] }
theorem test_witness_invariant :
    StateInv thirdWrite ∧ Disciplined thirdWrite ∧ thirdWrite.par.wf = true ∧
    thirdWrite.mem.wf = true ∧ thirdWrite.rstAsserted = false ∧ ¬ PortReady thirdWrite ∧
    step thirdWrite = .next (after (step thirdWrite)) :=
  ⟨by decide, by decide, by decide, by decide, by decide, by decide, rfl⟩
/-- StepFrame, in a phase other than WR; HELD, in which the invariant says most. -/
theorem test_witness_held :
    StateInv (presenting (inPhase .held 6 6 6 true) 0x2008) ∧
    (presenting (inPhase .held 6 6 6 true) 0x2008).ph ≠ .wr ∧
    step (presenting (inPhase .held 6 6 6 true) 0x2008) =
      .next (after (step (presenting (inPhase .held 6 6 6 true) 0x2008))) :=
  ⟨by decide, by decide, rfl⟩
/-- OnlySetblAndResetWriteBacklight: a SETBL and a reset that change `BL`. -/
theorem test_witness_backlight :
    step (presenting State.reset 0x4001) = .next (after (step (presenting State.reset 0x4001))) ∧
    (after (step (presenting State.reset 0x4001))).bl ≠ State.reset.bl ∧
    (after (step { State.reset with bl := true, inp := { Inputs.none with rst := [true] } })).bl =
      false := ⟨rfl, by decide, by decide⟩
/-- StalledBusHangs, its three clauses at two polls. -/
theorem test_witness_stall :
    (inPhase .rdy 6 0 0 false).par.wf = true ∧ (inPhase .rdy 6 0 0 false).inp.rst = [] ∧
    { Inputs.none with ready := [false, false] }.ready = List.replicate 2 false ∧
    { Inputs.none with qEmpty := [false, false] }.qEmpty = List.replicate 2 false ∧
    { Inputs.none with busy := [true, true] }.busy = List.replicate 2 true := by decide
/-- CleanCommandRunsToItsResponse: a command that opens and closes its frame. -/
theorem test_witness_clean :
    let s := { presenting State.reset 0x1030 with
      inp := { Inputs.none with
        host := [.present 0x1030], ready := [true, true, true], qEmpty := [true], busy := [false]
        abort := [0, 0, 0, 0] } }
    s.par.wf = true ∧ s.inp.rst = [] ∧ PortReady s ∧
    s.inp.host = [.present (encode (.xfer8 false .instruction 0x30))] ∧
    s.inp.ready = List.replicate 3 true ++ [] ∧
    s.inp.abort = List.replicate 4 Config.abortNone ++ [] ∧
    s.inp.qEmpty = true :: [] ∧ s.inp.busy = false :: [] := by decide
/-- CleanCommandRunsToItsResponse: one that continues a frame and leaves it open. -/
theorem test_witness_clean_more :
    let s := { inPhase .held 6 6 6 true with
      inp := { Inputs.none with
        host := [.present 0x1230], ready := [true, true, true], abort := [0, 0, 0] } }
    s.par.wf = true ∧ s.inp.rst = [] ∧ PortReady s ∧
    s.inp.host = [.present (encode (.xfer8 true .instruction 0x30))] ∧
    s.inp.ready = List.replicate 3 true ++ [] ∧
    s.inp.abort = List.replicate 3 Config.abortNone ++ [] := by decide
/-- AbortedCommandStopsAtItsSample: a sample after the last snapshot, and one after the drain. -/
theorem test_witness_aborted :
    let s := { State.reset with
      inp := { Inputs.none with
        host := [.present 0x1030], ready := [true, true, true], abort := [0, 0, 5] } }
    let u := { State.reset with
      inp := { Inputs.none with
        host := [.present 0x1030], ready := [true, true, true], qEmpty := [true], busy := [false]
        abort := [0, 0, 0, 5] } }
    s.par.wf = true ∧ s.inp.rst = [] ∧ PortReady s ∧
    s.inp.host = [.present (encode (.xfer8 false .instruction 0x30))] ∧
    5 % 2 ^ s.par.abortW ≠ Config.abortNone ∧
    (snapshots s.par.masks s.bl (.xfer8 false .instruction 0x30))[2]? = some 0x30 ∧
    s.inp.ready = List.replicate (2 + 1) true ++ [] ∧
    s.inp.abort = List.replicate 2 Config.abortNone ++ 5 :: [] ∧
    u.inp.ready = List.replicate 3 true ++ [] ∧ u.inp.qEmpty = true :: [] ∧
    u.inp.busy = false :: [] ∧ u.inp.abort = List.replicate 3 Config.abortNone ++ 5 :: [] := by
  decide
/-- AbortedCommandStopsAtItsSample: the first sample of a command that continues a frame and would
leave it open. -/
theorem test_witness_aborted_more :
    let s := { inPhase .held 6 6 6 true with
      inp := { Inputs.none with host := [.present 0x2328], ready := [true], abort := [5] } }
    s.par.wf = true ∧ s.inp.rst = [] ∧ PortReady s ∧
    s.inp.host = [.present (encode (.xfer4 true .data 0x28))] ∧
    5 % 2 ^ s.par.abortW ≠ Config.abortNone ∧
    (snapshots s.par.masks s.bl (.xfer4 true .data 0x28))[0]? = some 0x29 ∧
    s.inp.ready = List.replicate (0 + 1) true ++ [] ∧
    s.inp.abort = List.replicate 0 Config.abortNone ++ 5 :: [] := by decide
/-- ProcedureAgreesWithTable, opening a frame and continuing one. -/
theorem test_witness_procedure :
    (inPhase .addr 6 0 0 false).par.wf = true ∧ (inPhase .addr 6 0 0 false).inp.rst = [] ∧
    (inPhase .addr 6 0 0 false).ph = .addr ∧
    (inPhase .addr 6 0 0 false).idx.toNat < (inPhase .addr 6 0 0 false).len.toNat ∧
    (inPhase .rdy 6 5 5 true).ph = .rdy ∧
    (inPhase .rdy 6 5 5 true).idx.toNat < (inPhase .rdy 6 5 5 true).len.toNat := by decide
/-- RequestedWaitOfACleanCommand, its three lengths. -/
theorem test_witness_requested_wait :
    (enc8 masks 0x30 .data true).length = 3 ∧ (enc4 masks 0x30 .data true).length = 6 ∧
    (encRaw 0x30).length = 1 := by decide
/-- CursorRowIsClamped, at both sides of the clamp. -/
theorem test_witness_cursor :
    twoLines.linesLegal = true ∧ 2 ≥ twoLines.lines ∧ twoLines.const = HostConst.table ∧
    1 < twoLines.lines := by decide
/-- GlyphBytesAreSentAsGiven, at the last byte. -/
theorem test_witness_glyph :
    masks.wf = true ∧
    #v[0x00, 0x0A, 0x1F, 0x1F, 0x0E, 0x04, 0x00, (0x11 : Byte)].toList[7]? = some 0x11 := by
  decide
/-- BurstLeavesOpenAllButTheLast. -/
theorem test_witness_burst :
    Instr.xfer4 false .instruction 0x28 ∈ [Instr.xfer4 false .instruction 0x28] := by decide
/-- MacroStopsAtTheFirstError: a run that stops after an attribute change it has made and before one
it has not, and one that runs to its end. -/
theorem test_witness_macro :
    let a := DisplayAttrs.start twoLines
    runMacro 1 [.assign (.cursorOn true), .act (.present 0xFFFF), .assign (.blinkOn true)] a
        State.reset =
      some
        { stoppedAt := some { st := .illegal, n := 0, r := 0 }
          attrs := { a with cursorOn := true }
          machine := { State.reset with st := .illegal, trace := [.respond .illegal 0 0] } } ∧
    runMacro 1 [.assign (.backlight true), .act (.present 0x4001)] a State.reset =
      some
        { stoppedAt := none
          attrs := { a with backlight := true }
          machine := { State.reset with bl := true, trace := [.respond .ok 0 0] } } := by decide
/-- MacrosKeepBacklightMirrored: `shift` of a favourable environment. -/
theorem test_witness_mirror :
    let a := { DisplayAttrs.start twoLines with backlight := true }
    let s := { inPhase .held 6 6 6 true with
      inp := { Inputs.none with
        ready := List.replicate 6 true, qEmpty := [true], busy := [false]
        abort := List.replicate 7 0 } }
    PortReady s ∧ s.inp.rst = [] ∧ Mirrored a s ∧
    shiftDisplay twoLines.const true ∈ allMacros twoLines a true 0 0 0 0 [] (Vector.replicate 8 0) ∧
    (runMacro 30 (shiftDisplay twoLines.const true) a s).isSome = true := by decide
/-- InitChangesBacklightAtStepNine: an `init()` whose raw byte in HELD is refused. -/
theorem test_witness_init_stop :
    let a := DisplayAttrs.start twoLines
    let s := { State.reset with ph := .held }
    (runMacro 3 [waitStep 50000, issueStep (.raw 0x00)] a s).map (·.stoppedAt) =
      some (some { st := .illegal, n := 0, r := 0 }) ∧
    (runMacro 3 (initSequence twoLines a) a s).map (·.attrs) = some a := by decide

end Sys2Proof.Tests
end

section
/-! The state after reset (spec/10_state.md R36). -/

namespace Sys2Proof.Machine

/-- The defaults of R8 meet the parameter constraint of R9. -/
@[simp] theorem defaultParams_wf : Config.defaultParams.wf = true := by decide

/-- Settles O31: each row of R36 is the field `State.reset` gives, the parameters are the admitted
defaults of R8, and `resetBlock` leaves `TARGET_ADDR`. -/
theorem resetStateIsAsGiven : Obligations.ResetStateIsAsGiven := by
  unfold Obligations.ResetStateIsAsGiven
  exact ⟨rfl, rfl, rfl, rfl, rfl, rfl, rfl, rfl, defaultParams_wf, State.resetBlock_targetAddr⟩

end Sys2Proof.Machine
end

section
/-! What a frame clocks into the display (spec/20_memory.md R54, spec/40_encoder.md R111): each
triplet makes one falling edge of enable. -/

namespace Sys2Proof.Machine

/-! ## The enable bit under the mask constraint of R9 -/

theorem en_eq_bit_of_wf {m : Masks} (h : m.wf = true) : ∃ j : Fin 4, m.en = 1#8 <<< j.val := by
  obtain ⟨_, j, _, -, -, -, rfl⟩ := wf_masks_cases h
  exact ⟨j, rfl⟩

theorem en_ne_zero_of_wf {m : Masks} (h : m.wf = true) : m.en ≠ 0#8 := by
  have bit_ne_zero : ∀ j : Fin 4, 1#8 <<< j.val ≠ 0#8 := by decide
  obtain ⟨j, hj⟩ := en_eq_bit_of_wf h
  exact hj ▸ bit_ne_zero j

/-- Enable is no data line: it lies in the low nibble. -/
theorem highBits_and_en_of_wf {m : Masks} (h : m.wf = true) : 0xF0#8 &&& m.en = 0 := by
  have bit_low : ∀ j : Fin 4, 0xF0#8 &&& 1#8 <<< j.val = 0 := by decide
  obtain ⟨j, hj⟩ := en_eq_bit_of_wf h
  exact hj ▸ bit_low j

/-- Enable is neither of the control bits that `ctl` sets. -/
theorem ctl_and_en_of_wf {m : Masks} (h : m.wf = true) (rs : RegSel) (bl : Bool) :
    ctl m rs bl &&& m.en = 0 := by
  obtain ⟨i, j, k, hij, -, hjk, rfl⟩ := wf_masks_cases h
  cases rs <;> revert bl i j k <;> decide

/-- A nibble on the data lines with the control bits beside it leaves the enable bit clear. -/
theorem nibble_or_ctl_and_en_of_wf {m : Masks} (h : m.wf = true) (x : Byte) (rs : RegSel)
    (bl : Bool) : ((x &&& 0xF0#8) ||| ctl m rs bl) &&& m.en = 0 := by
  have hx : x &&& 0xF0#8 &&& m.en = 0 := by simp [BitVec.and_assoc, highBits_and_en_of_wf h]
  rw [BitVec.and_or_distrib_right, hx, ctl_and_en_of_wf h, BitVec.or_self]

/-- Clearing bits that are already clear changes nothing. -/
theorem and_not_eq_self {v k : Byte} (h : v &&& k = 0) : v &&& ~~~k = v :=
  calc v &&& ~~~k = (v &&& k) ||| (v &&& ~~~k) := by simp [h]
    _ = v &&& BitVec.allOnes 8 := by rw [← BitVec.and_or_distrib_left, BitVec.or_not_self]
    _ = v := BitVec.and_allOnes

/-! ## The falling edges of a frame -/

/-- From enable low, a triplet makes one falling edge, at its last snapshot (R111): the first
snapshot keeps enable low and the second raises it. -/
theorem fallingEdges_tri_append {m : Masks} (hen : m.en ≠ 0#8) {before : Byte}
    (hb : before &&& m.en = 0) (v : Byte) (rest : List Byte) :
    Safety.fallingEdges m before (tri m v ++ rest) =
      (v &&& ~~~m.en) :: Safety.fallingEdges m (v &&& ~~~m.en) rest := by
  simp [tri, Safety.fallingEdges, hb, enable_clear, enable_set, hen, hen.symm]

theorem fallingEdges_enc8 {m : Masks} (hen : m.en ≠ 0#8) {before : Byte} (hb : before &&& m.en = 0)
    (b : Byte) (rs : RegSel) (bl : Bool) :
    Safety.fallingEdges m before (enc8 m b rs bl) = [(b ||| ctl m rs bl) &&& ~~~m.en] := by
  simpa [enc8, Safety.fallingEdges] using fallingEdges_tri_append hen hb (b ||| ctl m rs bl) []

/-- A FourBit frame is the EightBit frames of its two nibbles in turn (R104 h), and the first
leaves enable low for the second. -/
theorem fallingEdges_enc4 {m : Masks} (hen : m.en ≠ 0#8) {before : Byte} (hb : before &&& m.en = 0)
    (b : Byte) (rs : RegSel) (bl : Bool) :
    Safety.fallingEdges m before (enc4 m b rs bl) =
      [(highNibble b ||| ctl m rs bl) &&& ~~~m.en, (lowNibble b ||| ctl m rs bl) &&& ~~~m.en] := by
  have low := fallingEdges_enc8 hen (enable_clear m (highNibble b ||| ctl m rs bl)) (lowNibble b)
    rs bl
  exact (fallingEdges_tri_append hen hb _ _).trans (congrArg _ low)

/-- Settles O8: each triplet makes one falling edge, at its last snapshot, and under the mask
constraint clearing the enable bit there changes neither nibble's value. -/
theorem frameClocksNibblesInOrder : Obligations.FrameClocksNibblesInOrder := by
  unfold Obligations.FrameClocksNibblesInOrder
  intro m before b rs bl hwf hb
  have hen := en_ne_zero_of_wf hwf
  refine ⟨?_, fallingEdges_enc8 hen hb b rs bl⟩
  rw [fallingEdges_enc4 hen hb, highNibble, lowNibble,
    and_not_eq_self (nibble_or_ctl_and_en_of_wf hwf b rs bl),
    and_not_eq_self (nibble_or_ctl_and_en_of_wf hwf (b <<< 4) rs bl)]

end Sys2Proof.Machine
end

section
/-! The transferring commands at their accept: the frame each hands to the transfer engine
(spec/30_encoding.md R87, R88, R89). -/

namespace Sys2Proof.Machine

/-! ## The frame buffer after a load (R21) -/

/-- A triplet goes to `FRAME[0..2]`, and `FRAME[3..5]` keep what they held. -/
theorem Frame.load_tri (f : Frame) (m : Masks) (v : Byte) :
    f.load (tri m v) = { f with f0 := v &&& ~~~m.en, f1 := v ||| m.en, f2 := v &&& ~~~m.en } := rfl

/-- Two triplets fill the buffer. -/
theorem Frame.load_tri_append_tri (f : Frame) (m : Masks) (u v : Byte) :
    f.load (tri m u ++ tri m v) =
      { f0 := u &&& ~~~m.en, f1 := u ||| m.en, f2 := u &&& ~~~m.en
        f3 := v &&& ~~~m.en, f4 := v ||| m.en, f5 := v &&& ~~~m.en } := rfl

theorem Frame.load_encRaw (f : Frame) (b : Byte) : f.load (encRaw b) = { f with f0 := b } := rfl

/-! ## The accept -/

/-- With the port ready, a command that has snapshots starts a transfer with them, unless it is a
RAW outside IDLE (R121, R164). -/
theorem exec_eq_startTransfer {i : Instr} {s : State} (hr : s.ph.ready = true)
    (hi : snapshots s.par.masks s.bl i ≠ []) (hraw : ∀ b, i = .raw b → s.ph = .idle) :
    exec i s = .next (s.startTransfer (snapshots s.par.masks s.bl i) (moreOf i)) := by
  obtain ⟨busy, -⟩ | ⟨-, -, -, h⟩ | ⟨held, ⟨b, hb⟩, -⟩ | ⟨-, v, rfl, -⟩ := exec_cases i s
  · simp [hr] at busy
  · exact h
  · simp [hraw b hb] at held
  · exact absurd rfl hi

theorem exec_xfer8_eq_startTransfer {s : State} (hr : s.ph.ready = true) (more : Bool)
    (rs : RegSel) (byte : Byte) :
    exec (.xfer8 more rs byte) s = .next (s.startTransfer (enc8 s.par.masks byte rs s.bl) more) :=
  exec_eq_startTransfer hr (List.cons_ne_nil _ _) nofun

theorem exec_xfer4_eq_startTransfer {s : State} (hr : s.ph.ready = true) (more : Bool)
    (rs : RegSel) (byte : Byte) :
    exec (.xfer4 more rs byte) s = .next (s.startTransfer (enc4 s.par.masks byte rs s.bl) more) :=
  exec_eq_startTransfer hr (List.cons_ne_nil _ _) nofun

theorem exec_raw_eq_startTransfer {s : State} (hidle : s.ph = .idle) (byte : Byte) :
    exec (.raw byte) s = .next (s.startTransfer (encRaw byte) false) :=
  exec_eq_startTransfer ((ready_iff _).2 (.inl hidle)) (List.cons_ne_nil _ _) fun _ _ => hidle

/-- Settles O9: the accept starts a transfer with one triplet, whose value R87 writes with the
control bits of `ctl` one after the other. -/
theorem xfer8BuildsItsFrame : Obligations.Xfer8BuildsItsFrame := by
  unfold Obligations.Xfer8BuildsItsFrame
  intro s more rs byte hready m v
  have hv : byte ||| ctl m rs s.bl = v := (BitVec.or_assoc _ _ _).symm
  rw [exec_xfer8_eq_startTransfer ((ready_iff _).2 hready), State.startTransfer, enc8_length, enc8,
    Frame.load_tri, hv]
  rfl

/-- Settles O10: the accept starts a transfer with the triplets of the two nibbles, and under the
mask constraint neither nibble's value has the enable bit to clear. -/
theorem xfer4BuildsItsFrame : Obligations.Xfer4BuildsItsFrame := by
  unfold Obligations.Xfer4BuildsItsFrame
  intro s more rs byte hready m c hi lo
  refine ⟨?_, fun hwf => ⟨and_not_eq_self (nibble_or_ctl_and_en_of_wf hwf byte rs s.bl),
    and_not_eq_self (nibble_or_ctl_and_en_of_wf hwf (byte <<< 4) rs s.bl)⟩⟩
  rw [exec_xfer4_eq_startTransfer ((ready_iff _).2 hready), State.startTransfer, enc4_length, enc4,
    Frame.load_tri_append_tri]
  rfl

/-- Settles O11: in IDLE the accept starts a transfer with the byte alone, and the phase that
opens a frame is ADDR. -/
theorem rawTakesItsByteAsGiven : Obligations.RawTakesItsByteAsGiven := by
  unfold Obligations.RawTakesItsByteAsGiven
  intro s byte hidle
  rw [exec_raw_eq_startTransfer hidle, State.startTransfer, Frame.load_encRaw, if_pos hidle]
  rfl

end Sys2Proof.Machine
end

section
/-! The steps of the transfer engine after the prologue (spec/41_transfer_engine.md R125 to R127
and R132 to R135): the row of R137 that a step is in each of these phases. -/

namespace Sys2Proof.Machine

open Sys2Proof.Safety (Running)

/-! ## The step, phase by phase (R137) -/

theorem step_of_rdy {s : State} (h : Running s) (hp : s.ph = .rdy) :
    step s = phaseRdy s.sampleRst := by
  rw [step_eq_transition h.1 h.2, transition, State.sampleRst_ph, hp]

theorem step_of_wr {s : State} (h : Running s) (hp : s.ph = .wr) :
    step s = phaseWr s.sampleRst := by
  rw [step_eq_transition h.1 h.2, transition, State.sampleRst_ph, hp]

theorem step_of_settle {s : State} (h : Running s) (hp : s.ph = .settle) :
    step s = phaseSettle s.sampleRst := by
  rw [step_eq_transition h.1 h.2, transition, State.sampleRst_ph, hp]

theorem step_of_drainQ {s : State} (h : Running s) (hp : s.ph = .drainQ) :
    step s = phaseDrainQ s.sampleRst := by
  rw [step_eq_transition h.1 h.2, transition, State.sampleRst_ph, hp]

theorem step_of_drainB {s : State} (h : Running s) (hp : s.ph = .drainB) :
    step s = phaseDrainB s.sampleRst := by
  rw [step_eq_transition h.1 h.2, transition, State.sampleRst_ph, hp]

theorem step_of_chkF {s : State} (h : Running s) (hp : s.ph = .chkF) :
    step s = phaseChkF s.sampleRst := by
  rw [step_eq_transition h.1 h.2, transition, State.sampleRst_ph, hp]

/-! ## The polling loops: each answer is one way out of the phase or back into it -/

/-- A loop that is left on the answer true. -/
theorem leaveOnTrue_eq (answer : Bool) (s : State) (out : Phase) :
    (if answer then { s with ph := out } else s) =
      { s with ph := if answer then out else s.ph } := by
  cases answer <;> rfl

/-- A loop that is left on the answer false. -/
theorem leaveOnFalse_eq (answer : Bool) (s : State) (out : Phase) :
    (if answer then s else { s with ph := out }) =
      { s with ph := if answer then s.ph else out } := by
  cases answer <;> rfl

/-- Settles O21: RDY is a loop around `PollReady` that the answer true leaves. -/
theorem readyIsPolledUntilTrue : Obligations.ReadyIsPolledUntilTrue := by
  unfold Obligations.ReadyIsPolledUntilTrue
  intro s hrun hp
  rw [step_of_rdy hrun hp, phaseRdy, leaveOnTrue_eq, State.pollReady_ph, State.sampleRst_ph, hp]
  rfl

/-- Settles O29: DRAINQ is a loop that the answer true leaves, DRAINB one that the answer false
leaves. -/
theorem drainPollsQueueThenBus : Obligations.DrainPollsQueueThenBus := by
  unfold Obligations.DrainPollsQueueThenBus
  refine fun s hrun => ⟨fun hp => ?_, fun hp => ?_⟩
  · rw [step_of_drainQ hrun hp, phaseDrainQ, leaveOnTrue_eq, State.pollQEmpty_ph,
      State.sampleRst_ph, hp]
    rfl
  · rw [step_of_drainB hrun hp, phaseDrainB, leaveOnFalse_eq, State.pollBusy_ph,
      State.sampleRst_ph, hp]
    rfl

/-! ## The write, the settle wait and the successful close -/

theorem phaseWr_of_get? {s : State} {v : Byte} (hv : s.frame.get? s.idx.toNat = some v) :
    phaseWr s = .next { s.busWrite v s.stopFlag with count := s.count + 1, ph := .settle } := by
  rw [phaseWr, hv]

/-- Settles O23: the port space after the write is the one `busWrite` leaves. -/
theorem writeHandsOverOneSnapshot : Obligations.WriteHandsOverOneSnapshot := by
  unfold Obligations.WriteHandsOverOneSnapshot
  intro s v hrun hp hv
  refine ⟨s.mem.write Config.portKey v, ?_⟩
  rw [step_of_wr hrun hp, phaseWr_of_get? (s := s.sampleRst) hv]
  rfl

/-- The default rise time is below the default granularity, so the short wait is one unit of
it (R8, R127). -/
theorem riseWaitUs_defaultParams : riseWaitUs Config.defaultParams = 1 := by decide

/-- Settles O25: SETTLE makes the one wait `settleUs` gives by the position in the triplet. -/
theorem settleWaitsByPosition : Obligations.SettleWaitsByPosition := by
  unfold Obligations.SettleWaitsByPosition
  refine ⟨fun s hrun hp => ?_, rfl, riseWaitUs_defaultParams⟩
  rw [step_of_settle hrun hp, phaseSettle, settleUs]
  rfl

theorem phaseChkF_of_clean {s : State} (hclean : s.abortAnswer = Config.abortNone) :
    phaseChkF s = .next { s.pollAbort.respond .ok s.len Config.abortNone with ph := .idle } :=
  if_pos hclean

/-- Settles O30: with a clean sample CHKF takes its successful exit, and the answer that the
poll records is that sample. -/
theorem cleanLastSampleCloses : Obligations.CleanLastSampleCloses := by
  unfold Obligations.CleanLastSampleCloses
  intro s hrun hp hclean
  rw [step_of_chkF hrun hp, phaseChkF_of_clean (s := s.sampleRst) hclean, State.pollAbort,
    sampleRst_abortAnswer, hclean]
  rfl

end Sys2Proof.Machine
end

section
/-! The commands that complete at their accept (spec/42_control.md): SETBL (R160, R161), and the
words the block refuses, a reserved word (R163) and RAW in HELD (R164). -/

namespace Sys2Proof.Machine

open Sys2Proof.Safety (Running PortReady)

/-! ## SETBL and the refused RAW at the accept -/

theorem exec_raw_of_held {s : State} (hheld : s.ph = .held) (byte : Byte) :
    exec (.raw byte) s = .next s.raiseIllegal := by
  obtain ⟨busy, -⟩ | ⟨-, -, idle, -⟩ | ⟨-, -, h⟩ | ⟨-, v, hv, -⟩ := exec_cases (.raw byte) s
  · simp [hheld] at busy
  · simp [hheld] at idle
  · exact h
  · cases hv

theorem exec_setbl_of_ready {s : State} (hr : s.ph.ready = true) (v : Bool) :
    exec (.setbl v) s = .next ({ s with bl := v }.respond .ok 0 Config.abortNone) := by
  obtain ⟨busy, -⟩ | ⟨-, hi, -⟩ | ⟨-, ⟨b, hb⟩, -⟩ | ⟨-, v', hv, h⟩ := exec_cases (.setbl v) s
  · simp [hr] at busy
  · exact absurd rfl hi
  · cases hb
  · cases hv
    exact h

/-- Settles O12: RAW in HELD is refused, and the refusal is the answer R163 gives. -/
theorem rawInHeldIsIllegal : Obligations.RawInHeldIsIllegal := by
  unfold Obligations.RawInHeldIsIllegal
  intro s byte hheld
  rw [exec_raw_of_held hheld, State.raiseIllegal, State.respond]

/-- Settles O13: in both ready phases SETBL writes the latch and responds. -/
theorem setblWritesOnlyTheLatch : Obligations.SetblWritesOnlyTheLatch := by
  unfold Obligations.SetblWritesOnlyTheLatch
  intro s v hready
  rw [exec_setbl_of_ready ((ready_iff _).2 hready), State.respond]

/-! ## A step with a ready port -/

theorem step_of_ready {s : State} (h : Running s) (hready : PortReady s) :
    step s = phaseReady s.sampleRst := by
  rw [step_eq_transition h.1 h.2, transition_ready (s := s.sampleRst) ((ready_iff _).2 hready)]

theorem phaseReady_of_reserved {s : State} {w : Word} {rest : List HostAct} {r : Reserved}
    (hhost : s.inp.host = .present w :: rest) (hd : decode w = .error r) :
    phaseReady s = .next s.dropHost.raiseIllegal := by
  simp only [phaseReady, hhost, hd]

/-- What an accept uses up of the environment: the host's next action and this step's `rst`
sample. -/
theorem sampleRst_dropHost_of_host {s : State} {a : HostAct} {rest : List HostAct}
    (hhost : s.inp.host = a :: rest) :
    s.sampleRst.dropHost =
      { s with inp := { s.inp with host := rest, rst := s.inp.rst.tail } } := by
  rw [State.dropHost, State.sampleRst_inp, hhost, State.sampleRst, List.tail_cons]

/-- Settles O18: the step is the accept of the reserved word, which uses the word up and answers
it with a refusal. -/
theorem reservedWordIsAnsweredIllegal : Obligations.ReservedWordIsAnsweredIllegal := by
  unfold Obligations.ReservedWordIsAnsweredIllegal
  intro s w rest r hrun hready hhost hd
  rw [step_of_ready hrun hready, phaseReady_of_reserved (s := s.sampleRst) hhost hd,
    sampleRst_dropHost_of_host hhost, State.raiseIllegal, State.respond]

end Sys2Proof.Machine
end

section
/-! The command words as numbers (spec/30_encoding.md R81 to R84, R91): each test of the decoder
looks at the leading bits, and each command's word is the sum of its fields. Both directions of the
encoding and the classes of the reserved words are then arithmetic. -/

namespace Sys2Proof

/-! ## The decoder's tests and fields (R84), read off the number -/

theorem xfer8Test_iff (w : Word) : w &&& 0xFC00 = 0x1000 ↔ w.toNat / 2 ^ 10 = 4 := by
  rw [show (0xFC00 : Word) = BitVec.allOnes 16 <<< 10 from rfl, ← BitVec.shiftLeft_ushiftRight]
  bv_omega

theorem xfer4Test_iff (w : Word) : w &&& 0xFC00 = 0x2000 ↔ w.toNat / 2 ^ 10 = 8 := by
  rw [show (0xFC00 : Word) = BitVec.allOnes 16 <<< 10 from rfl, ← BitVec.shiftLeft_ushiftRight]
  bv_omega

theorem rawTest_iff (w : Word) : w &&& 0xFF00 = 0x3000 ↔ w.toNat / 2 ^ 8 = 0x30 := by
  rw [show (0xFF00 : Word) = BitVec.allOnes 16 <<< 8 from rfl, ← BitVec.shiftLeft_ushiftRight]
  bv_omega

theorem setblTest_iff (w : Word) : w &&& 0xFFFE = 0x4000 ↔ w.toNat / 2 = 0x2000 := by
  rw [show (0xFFFE : Word) = BitVec.allOnes 16 <<< 1 from rfl, ← BitVec.shiftLeft_ushiftRight]
  bv_omega

theorem byteField_toNat (w : Word) : (byteField w).toNat = w.toNat % 2 ^ 8 := by
  simp [byteField]

theorem rsField_bit_toNat (w : Word) : (rsField w).bit.toNat = w.toNat / 2 ^ 8 % 2 := by
  have h : w.getLsbD 8 = decide (w.toNat / 2 ^ 8 % 2 = 1) := Nat.testBit_eq_decide_div_mod_eq
  rw [rsField, h]
  split <;> simp_all [RegSel.bit]

theorem moreField_toNat (w : Word) : (moreField w).toNat = w.toNat / 2 ^ 9 % 2 :=
  Nat.toNat_testBit w.toNat 9

theorem vField_toNat (w : Word) : (vField w).toNat = w.toNat % 2 :=
  (Nat.toNat_testBit w.toNat 0).trans (by simp)

theorem bool_eq_of_toNat {a b : Bool} (h : a.toNat = b.toNat) : a = b := by
  revert a b; decide

theorem RegSel.eq_of_bit_toNat {a b : RegSel} (h : a.bit.toNat = b.bit.toNat) : a = b := by
  cases a <;> cases b <;> simp_all [RegSel.bit]

/-- A word is decoded by the first test of R84 that its number passes. -/
theorem decode_eq (w : Word) :
    decode w =
      if w.toNat / 2 ^ 10 = 4 then .ok (.xfer8 (moreField w) (rsField w) (byteField w))
      else if w.toNat / 2 ^ 10 = 8 then .ok (.xfer4 (moreField w) (rsField w) (byteField w))
      else if w.toNat / 2 ^ 8 = 0x30 then .ok (.raw (byteField w))
      else if w.toNat / 2 = 0x2000 then .ok (.setbl (vField w))
      else .error (reservedClass w) := by
  simp only [decode, xfer8Test_iff, xfer4Test_iff, rawTest_iff, setblTest_iff]

/-! ## The encoder's words (R81) as sums -/

theorem fieldAt_zero {n : Nat} (v : BitVec n) : fieldAt 0 v = v.setWidth 16 :=
  BitVec.shiftLeft_zero _

/-- A byte fills the low bits that a multiple of 256 leaves clear. -/
theorem or_byte_toNat {k : Nat} (hk : k < 256) (b : Byte) :
    (BitVec.ofNat 16 (2 ^ 8 * k) ||| fieldAt 0 b).toNat = 2 ^ 8 * k + b.toNat := by
  have hb := b.isLt
  rw [BitVec.toNat_or, fieldAt_zero, BitVec.toNat_setWidth, BitVec.toNat_ofNat,
    Nat.mod_eq_of_lt (by omega), Nat.mod_eq_of_lt (by omega), Nat.two_pow_add_eq_or_of_lt hb]

theorem formatX_toNat (op : BitVec 4) (more : Bool) (rs : RegSel) (byte : Byte) :
    (formatX op more rs byte).toNat =
      2 ^ 12 * op.toNat + 2 ^ 9 * more.toNat + 2 ^ 8 * rs.bit.toNat + byte.toNat := by
  have leading : fieldAt 12 op ||| fieldAt 9 (BitVec.ofBool more) ||| fieldAt 8 rs.bit =
      BitVec.ofNat 16 (2 ^ 8 * (16 * op.toNat + 2 * more.toNat + rs.bit.toNat)) := by
    cases more <;> cases rs <;> revert op <;> decide
  have hop := op.isLt
  have hmore := more.toNat_lt
  have hrs := rs.bit.isLt
  rw [formatX, leading, or_byte_toNat (by omega)]
  omega

theorem encode_raw_toNat (byte : Byte) : (encode (.raw byte)).toNat = 0x3000 + byte.toNat :=
  or_byte_toNat (k := 0x30) (by decide) byte

theorem encode_setbl_toNat (v : Bool) : (encode (.setbl v)).toNat = 0x4000 + v.toNat := by
  cases v <;> rfl

/-! ## The round trip -/

/-- The three operand fields of format X are read back as they were placed. -/
theorem fields_formatX (op : BitVec 4) (more : Bool) (rs : RegSel) (byte : Byte) :
    moreField (formatX op more rs byte) = more ∧ rsField (formatX op more rs byte) = rs ∧
      byteField (formatX op more rs byte) = byte := by
  have hw := formatX_toNat op more rs byte
  have hmore := more.toNat_lt
  have hrs := rs.bit.isLt
  have hbyte := byte.isLt
  refine ⟨bool_eq_of_toNat ?_, RegSel.eq_of_bit_toNat ?_, BitVec.eq_of_toNat_eq ?_⟩
  · rw [moreField_toNat]; omega
  · rw [rsField_bit_toNat]; omega
  · rw [byteField_toNat]; omega

theorem decode_encode (i : Instr) : decode (encode i) = .ok i := by
  rw [decode_eq]
  cases i with
  | xfer8 more rs byte =>
    have hw := formatX_toNat 0b0001 more rs byte
    obtain ⟨hmore, hrs, hbyte⟩ := fields_formatX 0b0001 more rs byte
    have hm := more.toNat_lt
    have hr := rs.bit.isLt
    simp only [encode, hmore, hrs, hbyte]
    rw [if_pos (by rw [hw]; simp; omega)]
  | xfer4 more rs byte =>
    have hw := formatX_toNat 0b0010 more rs byte
    obtain ⟨hmore, hrs, hbyte⟩ := fields_formatX 0b0010 more rs byte
    have hm := more.toNat_lt
    have hr := rs.bit.isLt
    simp only [encode, hmore, hrs, hbyte]
    rw [if_neg (by rw [hw]; simp; omega), if_pos (by rw [hw]; simp; omega)]
  | raw byte =>
    have hw := encode_raw_toNat byte
    have hb : byteField (encode (.raw byte)) = byte :=
      BitVec.eq_of_toNat_eq (by rw [byteField_toNat]; omega)
    rw [if_neg (by omega), if_neg (by omega), if_pos (by omega), hb]
  | setbl v =>
    have hw := encode_setbl_toNat v
    have hv : vField (encode (.setbl v)) = v :=
      bool_eq_of_toNat (by rw [vField_toNat]; have := v.toNat_lt; omega)
    have := v.toNat_lt
    rw [if_neg (by omega), if_neg (by omega), if_neg (by omega), if_pos (by omega), hv]

/-- A word that starts with its opcode and two zeros is the format X word of its fields. -/
theorem formatX_fields {w : Word} {op : BitVec 4} (h : w.toNat / 2 ^ 10 = 4 * op.toNat) :
    formatX op (moreField w) (rsField w) (byteField w) = w := by
  apply BitVec.eq_of_toNat_eq
  rw [formatX_toNat, moreField_toNat, rsField_bit_toNat, byteField_toNat]
  omega

theorem encode_of_decode {w : Word} {i : Instr} (h : decode w = .ok i) : encode i = w := by
  rw [decode_eq] at h
  split_ifs at h with h8 h4 hraw hset <;> cases h
  · exact formatX_fields h8
  · exact formatX_fields h4
  · apply BitVec.eq_of_toNat_eq
    rw [encode_raw_toNat, byteField_toNat]
    omega
  · apply BitVec.eq_of_toNat_eq
    rw [encode_setbl_toNat, vField_toNat]
    omega

theorem decode_eq_ok_iff {w : Word} {i : Instr} : decode w = .ok i ↔ encode i = w :=
  ⟨encode_of_decode, fun h => h ▸ decode_encode i⟩

/-- Settles O3: the encoder's words decode to their commands, and the fields the decoder reads
make up the whole word again. -/
theorem decodeEncodeAgree : Obligations.DecodeEncodeAgree := by
  unfold Obligations.DecodeEncodeAgree
  exact fun _ _ => decode_eq_ok_iff

/-! ## The reserved words (R91) -/

/-- A word is reserved when it passes none of the four tests. -/
theorem decode_eq_error_iff (w : Word) :
    (∃ r, decode w = .error r) ↔
      w.toNat / 2 ^ 10 ≠ 4 ∧ w.toNat / 2 ^ 10 ≠ 8 ∧ w.toNat / 2 ^ 8 ≠ 0x30 ∧
        w.toNat / 2 ≠ 0x2000 := by
  rw [decode_eq]
  split_ifs <;> simp_all

/-- Settles O4: each test of R84 asks for its opcode and a zero field, so a word that passes none
has another opcode or a one in the zero field of its own. -/
theorem reservedWordsAreExactly : Obligations.ReservedWordsAreExactly := by
  unfold Obligations.ReservedWordsAreExactly
  intro w
  have field_toNat (lo n : Nat) : (w.extractLsb' lo n).toNat = w.toNat / 2 ^ lo % 2 ^ n := by
    rw [BitVec.extractLsb'_toNat, Nat.shiftRight_eq_div_pow]
  have hw := w.isLt
  simp only [decode_eq_error_iff, ← BitVec.toNat_inj, ne_eq, field_toNat,
    BitVec.ofNat_eq_ofNat, BitVec.toNat_ofNat]
  omega

/-! ## Words written out -/

/-- Settles O1: each written word evaluates to the command or the reserved class named. -/
theorem writtenWordsDecode : Obligations.WrittenWordsDecode := by
  unfold Obligations.WrittenWordsDecode
  decide

/-- Settles O2: the byte stands at bit 0 of its word, so only the leading bits of each row have to
be evaluated. -/
theorem syntaxTableWords : Obligations.SyntaxTableWords := by
  unfold Obligations.SyntaxTableWords
  intro b imm
  simp only [encode, formatX, fieldAt_zero]
  exact ⟨rfl, rfl, rfl, rfl, rfl, rfl, rfl, rfl, rfl, rfl, rfl⟩

end Sys2Proof
end

section
/-! The state invariant (spec/10_state.md R37): each operation that a step is made of keeps it,
and so every step does. -/

namespace Sys2Proof.Machine

open Sys2Proof.Safety

/-- The record of events is no part of the invariant. -/
theorem stateInv_emit {s : State} (h : StateInv s) (e : Event) : StateInv (s.emit e) := h

/-! ## Answers at a ready port, and reset -/

/-- At a ready port no clause but those on `ST` and `REASON` speaks of what a response writes. -/
theorem stateInv_respond_of_ready {s : State} (h : StateInv s) (hr : s.ph.ready = true)
    {st : Status} (hst : st ≠ .busAbort) (n : Cnt) :
    StateInv (s.respond st n Config.abortNone) := by
  obtain ⟨hlen, hidx, -, hheld, hmore, -, hen, -⟩ := h
  refine ⟨hlen, hidx, ?_, hheld, hmore, ?_, hen, Nat.two_pow_pos _⟩
  · rcases (ready_iff _).1 hr with hp | hp <;> simp [CountTracksIdx, InDrain, hp]
  · simp [ResultLegal, hst, hr]

theorem stateInv_resetBlock (s : State) : StateInv s.resetBlock := by
  refine ⟨.inl rfl, ?_, ?_, ?_, ?_, ?_, ?_, Nat.two_pow_pos _⟩ <;>
    simp [IdxBounded, CountTracksIdx, HeldIsOpen, MoreLegal, ResultLegal, EnableShape, InBytes,
      InDrain]

/-! ## The accept of a transferring command -/

/-- The lengths a transferring command can give its frame; RAW, the one of length 1, closes it. -/
theorem snapshots_length_cases (m : Masks) (bl : Bool) {i : Instr} (h : snapshots m bl i ≠ []) :
    (snapshots m bl i).length = 3 ∨ (snapshots m bl i).length = 6 ∨
      (snapshots m bl i).length = 1 ∧ moreOf i = false := by
  cases i with
  | xfer8 more rs byte => exact .inl rfl
  | xfer4 more rs byte => exact .inr (.inl rfl)
  | raw byte => exact .inr (.inr ⟨rfl, rfl⟩)
  | setbl v => exact absurd rfl h

/-- An encoded frame is made of triplets. -/
theorem enableShape_startTransfer (s : State) (i : Instr) :
    EnableShape (s.startTransfer (snapshots s.par.masks s.bl i) (moreOf i)) := by
  cases i with
  | xfer8 more rs byte =>
    exact ⟨fun _ => ⟨enable_clear _ _, enable_set _ _, enable_clear _ _⟩, fun h => by cases h⟩
  | xfer4 more rs byte =>
    exact ⟨fun _ => ⟨enable_clear _ _, enable_set _ _, enable_clear _ _⟩,
      fun _ => ⟨enable_clear _ _, enable_set _ _, enable_clear _ _⟩⟩
  | raw byte => exact ⟨nofun, nofun⟩
  | setbl v => exact ⟨nofun, nofun⟩

/-- A command is about to send the first of its snapshots, or to select the target before it. -/
theorem stateInv_of_begun {u : State} (hp : u.ph = .addr ∨ u.ph = .rdy) (hidx : u.idx = 0)
    (hcount : u.count = 0) (hst : u.st = .ok) (hreason : u.reason = Config.abortNone)
    (hlen : u.len = 3 ∨ u.len = 6 ∨ u.len = 1 ∧ u.more = false) (hen : EnableShape u) :
    StateInv u := by
  refine ⟨?_, ?_, ?_, ?_, ?_, ?_, hen, ?_⟩
  · rcases hlen with h | h | ⟨h, -⟩ <;> simp [LenLegal, h]
  · rcases hlen with h | h | ⟨h, -⟩ <;> simp [IdxBounded, hidx, h]
  · rcases hp with hp | hp <;> simp [CountTracksIdx, InDrain, hp, hidx, hcount]
  · rcases hp with hp | hp <;> simp [HeldIsOpen, hp]
  · rcases hlen with h | h | ⟨h, hm⟩ <;> rcases hp with hp | hp <;> simp_all [MoreLegal, InDrain]
  · simp [ResultLegal, hst, hreason]
  · rw [ReasonFits, hreason]
    exact Nat.two_pow_pos _

theorem startTransfer_ph_cases (s : State) (bs : List Byte) (more : Bool) :
    (s.startTransfer bs more).ph = .addr ∨ (s.startTransfer bs more).ph = .rdy := by
  rw [State.startTransfer_ph]
  split <;> simp

theorem stateInv_startTransfer {s : State} {i : Instr}
    (hi : snapshots s.par.masks s.bl i ≠ []) :
    StateInv (s.startTransfer (snapshots s.par.masks s.bl i) (moreOf i)) := by
  refine stateInv_of_begun (startTransfer_ph_cases ..) rfl rfl rfl rfl ?_
    (enableShape_startTransfer s i)
  rcases snapshots_length_cases s.par.masks s.bl hi with h | h | ⟨h, hm⟩ <;> simp [*]

/-! ## The transitions of the transfer engine -/

/-- From one busy phase to another the clauses that can break are those on `IDX`, on `COUNT` and
on `MORE` in the drain. -/
theorem stateInv_of_move {s : State} (h : StateInv s) (hs : s.ph.ready = false) {idx count : Cnt}
    {p : Phase} (hp : p.ready = false)
    (hidx : IdxBounded { s with idx := idx, count := count, ph := p })
    (hcount : CountTracksIdx { s with idx := idx, count := count, ph := p })
    (hdrain : InDrain p → s.more = false) :
    StateInv { s with idx := idx, count := count, ph := p } := by
  obtain ⟨hlen, -, -, -, ⟨-, hraw⟩, ⟨habort, hother, hok⟩, hen, hfit⟩ := h
  refine ⟨hlen, hidx, hcount, ?_, ⟨hdrain, hraw⟩, ⟨habort, hother, fun _ => hok ?_⟩, hen, hfit⟩
  · rintro rfl
    cases hp
  · simp [hs]

/-- The prologue and a true answer to `PollReady` leave `IDX` and `COUNT` at the snapshot to be
written. -/
theorem stateInv_toWrite {s : State} (h : StateInv s) (hs : s.ph = .addr ∨ s.ph = .rdy)
    {p : Phase} (hp : p = .rdy ∨ p = .wr) : StateInv { s with ph := p } := by
  have ⟨_, ⟨hle, hlt⟩, ⟨hcount, _⟩, _⟩ := h
  have hidx := hlt (hs.imp id .inl)
  have hcount := hcount (hs.imp id .inl)
  have hbusy : s.ph.ready = false := by rcases hs with hs | hs <;> rw [hs] <;> rfl
  refine stateInv_of_move (idx := s.idx) (count := s.count) h hbusy ?_ ⟨hle, fun _ => hidx⟩
    ⟨fun _ => hcount, ?_⟩ ?_ <;>
    rcases hp with rfl | rfl <;> simp [Phase.ready, InDrain]

/-- The write counts its snapshot. -/
theorem stateInv_write {s : State} (h : StateInv s) (hs : s.ph = .wr) :
    StateInv { s with count := s.count + 1, ph := .settle } := by
  have ⟨_, ⟨hle, hlt⟩, ⟨hcount, _⟩, _⟩ := h
  have hidx := hlt (by simp [InBytes, hs])
  have hnext : (s.count + 1).toNat = s.idx.toNat + 1 := by
    rw [hcount (by simp [hs])]
    bv_omega
  exact stateInv_of_move (idx := s.idx) h (by rw [hs]; rfl) rfl ⟨hle, fun _ => hidx⟩
    ⟨by simp, fun _ => hnext, by simp [InDrain]⟩ (by simp [InDrain])

theorem stateInv_settle {s : State} (h : StateInv s) (hs : s.ph = .settle) :
    StateInv { s with ph := .chk } := by
  have ⟨_, ⟨hle, hlt⟩, ⟨_, hcount, _⟩, _⟩ := h
  exact stateInv_of_move (idx := s.idx) (count := s.count) h (by rw [hs]; rfl) rfl
    ⟨hle, fun _ => hlt (by simp [InBytes, hs])⟩
    ⟨by simp, fun _ => hcount (.inl hs), by simp [InDrain]⟩ (by simp [InDrain])

/-- A clean sample brings `IDX` up to `COUNT`. -/
theorem succ_idx_of_chk {s : State} (h : StateInv s) (hs : s.ph = .chk) :
    (s.idx + 1).toNat = s.idx.toNat + 1 ∧ s.count = s.idx + 1 := by
  have ⟨_, ⟨_, hlt⟩, ⟨_, hcount, _⟩, _⟩ := h
  have hidx := hlt (by simp [InBytes, hs])
  have hcount := hcount (.inr hs)
  constructor <;> bv_omega

theorem stateInv_nextSnapshot {s : State} (h : StateInv s) (hs : s.ph = .chk)
    (hlt : s.idx.toNat + 1 < s.len.toNat) :
    StateInv { s with idx := s.idx + 1, ph := .rdy } := by
  obtain ⟨hidx, hcount⟩ := succ_idx_of_chk h hs
  exact stateInv_of_move (count := s.count) h (by rw [hs]; rfl) rfl
    ⟨by simp only [hidx]; omega, fun _ => by simp only [hidx]; omega⟩
    ⟨fun _ => hcount, by simp, by simp [InDrain]⟩ (by simp [InDrain])

/-- After the last snapshot `IDX` and `COUNT` stand at `LEN`. -/
theorem succ_idx_eq_len_of_chk {s : State} (h : StateInv s) (hs : s.ph = .chk)
    (hlast : s.idx.toNat + 1 = s.len.toNat) : s.idx + 1 = s.len :=
  BitVec.eq_of_toNat_eq ((succ_idx_of_chk h hs).1.trans hlast)

theorem stateInv_toDrain {s : State} (h : StateInv s) (hs : s.ph = .chk)
    (hlast : s.idx.toNat + 1 = s.len.toNat) (hm : s.more = false) :
    StateInv { s with idx := s.idx + 1, ph := .drainQ } := by
  have hlen := succ_idx_eq_len_of_chk h hs hlast
  exact stateInv_of_move (count := s.count) h (by rw [hs]; rfl) rfl
    ⟨hlen ▸ Nat.le_refl _, by simp [InBytes]⟩
    ⟨by simp, by simp, fun _ => ⟨(succ_idx_of_chk h hs).2, hlen⟩⟩ fun _ => hm

theorem stateInv_openEnd {s : State} (h : StateInv s) (hs : s.ph = .chk)
    (hlast : s.idx.toNat + 1 = s.len.toNat) (hm : s.more = true) :
    StateInv { s.respond .ok s.len Config.abortNone with idx := s.idx + 1, ph := .held } := by
  have hidx := succ_idx_eq_len_of_chk h hs hlast
  obtain ⟨hlen, -, -, -, ⟨-, hraw⟩, -, hen, -⟩ := h
  have hne : s.len ≠ 0 := by bv_omega
  refine ⟨hlen, ⟨hidx ▸ Nat.le_refl _, by simp [InBytes]⟩, by simp [CountTracksIdx, InDrain],
    fun _ => ⟨hm, hidx, hne⟩, ⟨by simp [InDrain], hraw⟩, by simp [ResultLegal], hen,
    Nat.two_pow_pos _⟩

theorem stateInv_drain {s : State} (h : StateInv s) (hs : InDrain s.ph) {p : Phase}
    (hp : InDrain p) : StateInv { s with ph := p } := by
  have ⟨_, ⟨hle, _⟩, ⟨_, _, hcount⟩, _, ⟨hmore, _⟩, _⟩ := h
  have busy_of_drain {q : Phase} (hq : InDrain q) : q.ready = false := by
    rcases hq with rfl | rfl | rfl <;> rfl
  refine stateInv_of_move (idx := s.idx) (count := s.count) h (busy_of_drain hs)
    (busy_of_drain hp) ⟨hle, ?_⟩ ⟨?_, ?_, fun _ => hcount hs⟩ fun _ => hmore hs <;>
    rcases hp with rfl | rfl | rfl <;> simp [InBytes]

/-- At the end of a frame, clean or not, no clause speaks of the phases before it. -/
theorem stateInv_toIdle {s : State} (h : StateInv s) {st : Status} {r : AbortCode} (n : Cnt)
    (hbad : st = .busAbort → r ≠ Config.abortNone)
    (hother : st ≠ .busAbort → r = Config.abortNone) (hfit : r < 2 ^ s.par.abortW) :
    StateInv { s with st := st, count := n, reason := r, ph := .idle } := by
  obtain ⟨hlen, ⟨hle, -⟩, -, -, ⟨-, hraw⟩, -, hen, -⟩ := h
  exact ⟨hlen, ⟨hle, by simp [InBytes]⟩, by simp [CountTracksIdx, InDrain], by simp [HeldIsOpen],
    ⟨by simp [InDrain], hraw⟩, ⟨hbad, hother, by simp⟩, hen, hfit⟩

/-! ## The step -/

theorem stateInv_chkClean {s t : State} (h : StateInv s) (hs : s.ph = .chk)
    (ht : chkClean s = .next t) : StateInv t := by
  obtain ⟨hlt, e⟩ | ⟨hlast, hm, e⟩ | ⟨hlast, hm, e⟩ | ⟨-, e⟩ := chkClean_cases s <;>
    rw [e] at ht <;> cases ht
  · exact stateInv_nextSnapshot h hs hlt
  · exact stateInv_openEnd h hs hlast hm
  · exact stateInv_toDrain h hs hlast hm

theorem stateInv_transition_busy {s t : State} (h : StateInv s) (hb : s.ph.ready = false)
    (ht : transition s = .next t) : StateInv t := by
  obtain ⟨hp, rfl⟩ | ⟨-, -, rfl⟩ | ⟨hp, -, rfl⟩ | ⟨hp, v, -, rfl⟩ | ⟨hp, rfl⟩ | ⟨hp, -, ht⟩ |
    ⟨-, ha, rfl⟩ | ⟨-, -, rfl⟩ | ⟨hp, -, rfl⟩ | ⟨-, -, rfl⟩ | ⟨hp, -, rfl⟩ | ⟨-, -, rfl⟩ :=
    transition_busy_cases ht hb
  · exact stateInv_toWrite h (.inl hp) (.inl rfl)
  · exact h
  · exact stateInv_toWrite h (.inr hp) (.inr rfl)
  · exact stateInv_write h hp
  · exact stateInv_settle h hp
  · exact stateInv_chkClean (s := s.pollAbort) h hp ht
  · exact stateInv_toIdle (s := s.pollAbort) (st := .busAbort) (r := s.abortAnswer) h s.count
      (fun _ => ha) (absurd rfl) (abortAnswer_lt s)
  · exact h
  · exact stateInv_drain h (.inl hp) (.inr (.inl rfl))
  · exact h
  · exact stateInv_drain h (.inr (.inl hp)) (.inr (.inr rfl))
  · exact stateInv_toIdle (s := s.pollAbort) (st := .ok) (r := Config.abortNone) h s.len nofun
      (fun _ => rfl) (Nat.two_pow_pos _)

/-- Settles O38: whatever a step is, the operations it is made of keep the invariant. -/
theorem stepKeepsInvariant : Obligations.StepKeepsInvariant := by
  unfold Obligations.StepKeepsInvariant
  intro s t h ht
  obtain ⟨-, rfl⟩ | ⟨-, hr, hhost⟩ | ⟨-, hb, ht⟩ := step_cases ht
  · exact stateInv_resetBlock _
  · obtain ⟨-, rfl⟩ | ⟨us, rest, -, rfl⟩ | ⟨w, rest, i, -, -, hi, -, rfl⟩ |
      ⟨w, rest, v, -, -, rfl⟩ | ⟨w, rest, -, -, rfl⟩ := hhost
    · exact h
    · exact stateInv_emit (s := s.sampleRst.dropHost) h _
    · exact stateInv_startTransfer (s := s.sampleRst.dropHost) hi
    · exact stateInv_respond_of_ready (s := { s.sampleRst.dropHost with bl := v }) (st := .ok) h hr
        nofun 0
    · exact stateInv_respond_of_ready (s := s.sampleRst.dropHost) (st := .illegal) h hr nofun 0
  · exact stateInv_transition_busy (s := s.sampleRst) h hb ht

/-- Settles O37: each clause of the invariant evaluates at the reset state. -/
theorem resetMeetsInvariant : Obligations.ResetMeetsInvariant := by
  unfold Obligations.ResetMeetsInvariant
  decide

/-! ## When a step answers a next state -/

theorem exec_answers_next (i : Instr) (s : State) : ∃ t, exec i s = .next t := by
  obtain ⟨-, e⟩ | ⟨-, -, -, e⟩ | ⟨-, -, e⟩ | ⟨-, v, -, e⟩ := exec_cases i s <;> exact ⟨_, e⟩

theorem phaseReady_answers_next (s : State) : ∃ t, phaseReady s = .next t := by
  obtain ⟨-, e⟩ | ⟨_, _, -, e⟩ | ⟨_, _, i, -, -, e⟩ | ⟨_, _, _, -, -, e⟩ := phaseReady_cases s
  · exact ⟨_, e⟩
  · exact ⟨_, e⟩
  · exact e ▸ exec_answers_next i _
  · exact ⟨_, e⟩

/-- The table leaves two states without a transition: WR with no snapshot at `IDX`, and a clean
sample past `LEN` (R137). -/
theorem transition_total (s : State) :
    (∃ t, transition s = .next t) ∨
    (s.ph = .wr ∧ s.frame.get? s.idx.toNat = none ∧ transition s = .fault .noSuchSnapshot) ∨
    (s.ph = .chk ∧ s.len.toNat < s.idx.toNat + 1 ∧ transition s = .fault .noTransition) := by
  cases hp : s.ph <;> simp only [transition, hp]
  case idle => exact .inl (phaseReady_answers_next s)
  case held => exact .inl (phaseReady_answers_next s)
  case wr =>
    cases hv : s.frame.get? s.idx.toNat with
    | some v => exact .inl ⟨_, phaseWr_of_get? hv⟩
    | none => simp [phaseWr, hv]
  case chk =>
    unfold phaseChk
    split
    · obtain ⟨-, e⟩ | ⟨-, -, e⟩ | ⟨-, -, e⟩ | ⟨hlt, e⟩ := chkClean_cases s.pollAbort
      · exact .inl ⟨_, e⟩
      · exact .inl ⟨_, e⟩
      · exact .inl ⟨_, e⟩
      · exact .inr (.inr ⟨trivial, hlt, e⟩)
    · exact .inl ⟨_, rfl⟩
  case chkF => unfold phaseChkF; split <;> exact .inl ⟨_, rfl⟩
  all_goals exact .inl ⟨_, rfl⟩

/-- Settles O33: the check of the parameters is the one refusal, since a transition answers a next
state or a fault. -/
theorem badParametersAreRejected : Obligations.BadParametersAreRejected := by
  unfold Obligations.BadParametersAreRejected
  refine fun s => ⟨fun hw => by simp [step, hw], fun hw r hr => ?_⟩
  cases hrst : s.rstAsserted
  · rw [step_eq_transition hw hrst] at hr
    obtain ⟨t, e⟩ | ⟨-, -, e⟩ | ⟨-, -, e⟩ := transition_total s.sampleRst <;> cases e.symm.trans hr
  · simp [step, resetOrTransition, hw, hrst] at hr

theorem Frame.get?_isSome_of_lt (f : Frame) {k : Nat} (hk : k < 6) : (f.get? k).isSome := by
  interval_cases k <;> rfl

theorem len_le_six_of_stateInv {s : State} (h : StateInv s) : s.len.toNat ≤ 6 := by
  obtain ⟨hlen, -⟩ := h
  rcases hlen with h | h | h | h <;> simp [h]

/-- Settles O39: with the invariant `IDX` is below `LEN` in WR and in CHK, and `LEN` is at most
the size of `FRAME`, so neither of the states without a transition occurs. -/
theorem invariantStateAlwaysSteps : Obligations.InvariantStateAlwaysSteps := by
  unfold Obligations.InvariantStateAlwaysSteps
  intro s hw h
  have hle := len_le_six_of_stateInv h
  have ⟨_, ⟨_, hlt⟩, _⟩ := h
  cases hrst : s.rstAsserted
  · rw [step_eq_transition hw hrst]
    obtain ht | ⟨hp, hnone, -⟩ | ⟨hp, hgt, -⟩ := transition_total s.sampleRst
    · exact ht
    · have hidx := hlt (.inr (.inr (.inl hp)))
      have hsome := s.frame.get?_isSome_of_lt (k := s.idx.toNat) (by omega)
      rw [State.sampleRst_frame, State.sampleRst_idx] at hnone
      simp [hnone] at hsome
    · have hidx := hlt (.inr (.inr (.inr (.inr hp))))
      simp only [State.sampleRst_len, State.sampleRst_idx] at hgt
      omega
  · exact ⟨_, step_next_iff.2 ⟨hw, .inl ⟨hrst, rfl⟩⟩⟩

end Sys2Proof.Machine
end

section
/-! The bus discipline (spec/20_memory.md R64): every step keeps it. The monitor sees the events
that a step makes one by one, and each meets its rule because of what the monitor remembers in the
phase that makes it. -/

namespace Sys2Proof.Machine

open Sys2Proof.Safety

/-! ## What the monitor remembers, phase by phase -/

section
variable {s : State} {m : Monitor}

theorem monitorFits_idle (hp : s.ph = .idle) : MonitorFits s m := by
  simp [MonitorFits, hp]

theorem monitorFits_addr_iff (hp : s.ph = .addr) : MonitorFits s m ↔ s.idx = 0 := by
  simp [MonitorFits, hp]

theorem monitorFits_rdy_iff (hp : s.ph = .rdy) :
    MonitorFits s m ↔ m.targeted = true ∧ m.waited = true ∧ m.stopped = false ∧
      m.written % 3 = s.idx.toNat % 3 := by
  simp [MonitorFits, hp]

theorem monitorFits_wr_iff (hp : s.ph = .wr) :
    MonitorFits s m ↔ (m.targeted = true ∧ m.waited = true ∧ m.stopped = false ∧
      m.written % 3 = s.idx.toNat % 3) ∧ m.ready = true := by
  simp [MonitorFits, hp]

theorem monitorFits_settle_iff (hp : s.ph = .settle) :
    MonitorFits s m ↔ m.targeted = true ∧ m.stopped = s.stopFlag ∧ 0 < m.written ∧
      (m.written - 1) % 3 = s.idx.toNat % 3 := by
  simp [MonitorFits, hp]

theorem monitorFits_chk_iff (hp : s.ph = .chk) :
    MonitorFits s m ↔ (m.targeted = true ∧ m.stopped = s.stopFlag ∧ 0 < m.written ∧
      (m.written - 1) % 3 = s.idx.toNat % 3) ∧ m.waited = true := by
  simp [MonitorFits, hp]

theorem monitorFits_held_iff (hp : s.ph = .held) :
    MonitorFits s m ↔ m.targeted = true ∧ m.waited = true ∧ m.stopped = false ∧
      m.written % 3 = 0 := by
  simp [MonitorFits, hp]

theorem monitorFits_drainQ_iff (hp : s.ph = .drainQ) : MonitorFits s m ↔ m.stopped = true := by
  simp [MonitorFits, hp]

theorem monitorFits_drainB_iff (hp : s.ph = .drainB) :
    MonitorFits s m ↔ m.stopped = true ∧ m.qEmpty = true := by
  simp [MonitorFits, hp]

theorem monitorFits_chkF_iff (hp : s.ph = .chkF) : MonitorFits s m ↔ m.drained = true := by
  simp [MonitorFits, hp]

end

/-- A state is disciplined when the monitor, run over what it has seen and the new events, is. -/
theorem disciplined_of_watch {t : State} {m : Monitor} (hw : watch t = m) (hb : m.broken = false)
    (hc : m.crit = false) (hfit : MonitorFits t m) : Disciplined t := by
  subst hw
  exact ⟨hb, hc, hfit⟩

/-! ## A ready port, and reset -/

theorem disciplined_resetBlock {s : State} (h : Disciplined s) : Disciplined s.resetBlock := by
  obtain ⟨hb, hc, -⟩ := h
  exact ⟨hb, hc, monitorFits_idle rfl⟩

theorem disciplined_hostWait {s : State} (h : Disciplined s) (us : Nat) :
    Disciplined (s.emit (.hostWait us)) := h

/-- A response that reports no snapshot is within the rules unless it is BUSABORT. -/
theorem disciplined_respond_zero {s : State} (h : Disciplined s) {st : Status}
    (hst : st ≠ .busAbort) (r : AbortCode) : Disciplined (s.respond st 0 r) := by
  obtain ⟨hb, hc, hfit⟩ := h
  refine disciplined_of_watch (m := (watch s).see s.par s.targetAddr (.respond st 0 r)) rfl ?_ hc
    hfit
  cases st <;> simp_all [Monitor.see]

/-- A command continues a frame whose last write was followed by its wait and carried no stop. -/
theorem disciplined_startTransfer {s : State} (h : Disciplined s) (hr : s.ph.ready = true)
    (bs : List Byte) (more : Bool) : Disciplined (s.startTransfer bs more) := by
  obtain ⟨hb, hc, hfit⟩ := h
  refine disciplined_of_watch (m := watch s) rfl hb hc ?_
  rcases (ready_iff _).1 hr with hp | hp
  · exact (monitorFits_addr_iff (if_pos hp)).2 rfl
  · have hrdy : (s.startTransfer bs more).ph = .rdy := by simp [hp]
    exact (monitorFits_rdy_iff hrdy).2 ((monitorFits_held_iff hp).1 hfit)

/-! ## The prologue and the byte loop -/

theorem disciplined_prologue {s : State} (h : Disciplined s) (hp : s.ph = .addr) :
    Disciplined { s.emitAll (prologueEvents s.par s.targetAddr) with ph := .rdy } := by
  obtain ⟨hb, hc, hfit⟩ := h
  have hidx := (monitorFits_addr_iff hp).1 hfit
  cases he : s.par.enableToggle <;>
    simpa [Disciplined, MonitorFits, watch, observe, prologueEvents, Monitor.see, Monitor.start, he,
      hidx] using ⟨hb, hc⟩

theorem disciplined_pollReady {s : State} (h : Disciplined s) (hp : s.ph = .rdy) :
    Disciplined s.pollReady ∧
      (s.readyAnswer = true → Disciplined { s.pollReady with ph := .wr }) := by
  obtain ⟨hb, hc, hfit⟩ := h
  have hfit := (monitorFits_rdy_iff hp).1 hfit
  have hbroken : ((watch s).see s.par s.targetAddr (.pollReady s.readyAnswer)).broken = false := by
    simp [Monitor.see, hb, hc]
  exact ⟨disciplined_of_watch rfl hbroken hc ((monitorFits_rdy_iff hp).2 hfit),
    fun ha => disciplined_of_watch rfl hbroken hc ((monitorFits_wr_iff rfl).2 ⟨hfit, ha⟩)⟩

theorem disciplined_write {s : State} (h : Disciplined s) (hp : s.ph = .wr) (v : Byte) :
    Disciplined { s.busWrite v s.stopFlag with count := s.count + 1, ph := .settle } := by
  obtain ⟨hb, hc, hfit⟩ := h
  obtain ⟨⟨ht, hw, hs, hidx⟩, hready⟩ := (monitorFits_wr_iff hp).1 hfit
  refine disciplined_of_watch (m := (watch s).see s.par s.targetAddr (.busWrite v s.stopFlag))
    rfl ?_ hc ((monitorFits_settle_iff rfl).2 ⟨ht, rfl, Nat.succ_pos _, hidx⟩)
  simp [Monitor.see, hb, hc, ht, hw, hs, hready]

theorem settleUs_congr (p : Params) {i j : Nat} (h : i % 3 = j % 3) :
    settleUs p i = settleUs p j := by
  rw [settleUs, settleUs, h]

theorem disciplined_settle {s : State} (h : Disciplined s) (hp : s.ph = .settle) :
    Disciplined { s.emit (.wait (settleUs s.par s.idx.toNat)) with ph := .chk } := by
  obtain ⟨hb, hc, hfit⟩ := h
  obtain ⟨ht, hs, hw, hidx⟩ := (monitorFits_settle_iff hp).1 hfit
  refine disciplined_of_watch
    (m := (watch s).see s.par s.targetAddr (.wait (settleUs s.par s.idx.toNat))) rfl ?_ hc
    ((monitorFits_chk_iff rfl).2 ⟨⟨ht, hs, hw, hidx⟩, ?_⟩)
  · simp [Monitor.see, hb, hw.ne']
  · simp [Monitor.see, settleUs_congr s.par hidx]

/-! ## The abort sample, the drain and the responses of a transfer -/

theorem watch_pollAbort (s : State) :
    watch s.pollAbort = (watch s).see s.par s.targetAddr (.pollAbort s.abortAnswer) := rfl

theorem watch_raiseBusAbort (s : State) (a : AbortCode) :
    watch (s.raiseBusAbort a) = ((watch s).see s.par s.targetAddr .clearAbort).see s.par
      s.targetAddr (.respond .busAbort s.count a) := rfl

/-- The abort exit is made after a bad sample, and its response after the `ClearAbort`. -/
theorem disciplined_raiseBusAbort {s : State} (h : Disciplined s)
    (ha : s.abortAnswer ≠ Config.abortNone) :
    Disciplined (s.pollAbort.raiseBusAbort s.abortAnswer) := by
  obtain ⟨hb, hc, -⟩ := h
  refine ⟨?_, ?_, monitorFits_idle rfl⟩
  · simp [watch_raiseBusAbort, watch_pollAbort, Monitor.see, hb, hc, ha]
  · simp [watch_raiseBusAbort, watch_pollAbort, Monitor.see, hc]

/-- A clean sample after a write without stop goes on, and one after the stop starts the drain. -/
theorem disciplined_chkClean {s t : State} (hinv : StateInv s) (h : Disciplined s)
    (hp : s.ph = .chk) (ht : chkClean s = .next t) : Disciplined t := by
  obtain ⟨hb, hc, hfit⟩ := h
  obtain ⟨⟨htarget, hs, hw, hidx⟩, hwait⟩ := (monitorFits_chk_iff hp).1 hfit
  obtain ⟨hsucc, -⟩ := succ_idx_of_chk hinv hp
  obtain ⟨hlt, e⟩ | ⟨hlast, hm, e⟩ | ⟨hlast, hm, e⟩ | ⟨-, e⟩ := chkClean_cases s <;>
    rw [e] at ht <;> cases ht
  · have hstop : s.stopFlag = false := by simp [State.stopFlag, State.lastByte, hlt.ne]
    refine disciplined_of_watch (m := watch s) rfl hb hc
      ((monitorFits_rdy_iff rfl).2 ⟨htarget, hwait, hs.trans hstop, ?_⟩)
    simp only [hsucc]
    omega
  · have hstop : s.stopFlag = false := by simp [State.stopFlag, hm]
    have hlen : s.len.toNat % 3 = 0 := by
      obtain ⟨hlen | hlen | hlen | hlen, -, -, -, ⟨-, hraw⟩, -⟩ := hinv
      · simp [hlen] at hlast
      · simp [hraw hlen] at hm
      · simp [hlen]
      · simp [hlen]
    refine disciplined_of_watch
      (m := (watch s).see s.par s.targetAddr (.respond .ok s.len Config.abortNone)) rfl ?_ hc
      ((monitorFits_held_iff rfl).2 ⟨htarget, hwait, hs.trans hstop, ?_⟩)
    · simp [Monitor.see, hb, hc, hs, hstop]
    · simp only [Monitor.see]
      omega
  · have hstop : s.stopFlag = true := by simp [State.stopFlag, State.lastByte, hlast, hm]
    exact disciplined_of_watch (m := watch s) rfl hb hc
      ((monitorFits_drainQ_iff rfl).2 (hs.trans hstop))

theorem disciplined_pollQEmpty {s : State} (h : Disciplined s) (hp : s.ph = .drainQ) :
    Disciplined s.pollQEmpty ∧
      (s.qEmptyAnswer = true → Disciplined { s.pollQEmpty with ph := .drainB }) := by
  obtain ⟨hb, hc, hfit⟩ := h
  have hs := (monitorFits_drainQ_iff hp).1 hfit
  have hbroken :
      ((watch s).see s.par s.targetAddr (.pollQEmpty s.qEmptyAnswer)).broken = false := by
    simp [Monitor.see, hb, hs]
  exact ⟨disciplined_of_watch rfl hbroken hc ((monitorFits_drainQ_iff hp).2 hs),
    fun ha => disciplined_of_watch rfl hbroken hc ((monitorFits_drainB_iff rfl).2 ⟨hs, ha⟩)⟩

theorem disciplined_pollBusy {s : State} (h : Disciplined s) (hp : s.ph = .drainB) :
    Disciplined s.pollBusy ∧
      (s.busyAnswer = false → Disciplined { s.pollBusy with ph := .chkF }) := by
  obtain ⟨hb, hc, hfit⟩ := h
  have hfit := (monitorFits_drainB_iff hp).1 hfit
  have hbroken : ((watch s).see s.par s.targetAddr (.pollBusy s.busyAnswer)).broken = false := by
    simp [Monitor.see, hb, hfit.2]
  exact ⟨disciplined_of_watch rfl hbroken hc ((monitorFits_drainB_iff hp).2 hfit),
    fun ha => disciplined_of_watch rfl hbroken hc
      ((monitorFits_chkF_iff rfl).2 (congrArg Bool.not ha))⟩

/-- The OK response after a stop comes after the drain. -/
theorem disciplined_close {s : State} (h : Disciplined s) (hp : s.ph = .chkF) :
    Disciplined { s.pollAbort.respond .ok s.len Config.abortNone with ph := .idle } := by
  obtain ⟨hb, hc, hfit⟩ := h
  have hdrained := (monitorFits_chkF_iff hp).1 hfit
  refine disciplined_of_watch
    (m := ((watch s).see s.par s.targetAddr (.pollAbort s.abortAnswer)).see s.par s.targetAddr
      (.respond .ok s.len Config.abortNone)) rfl ?_ hc (monitorFits_idle rfl)
  simp [Monitor.see, hb, hc, hdrained]

/-! ## The step -/

theorem disciplined_transition_busy {s t : State} (hinv : StateInv s) (h : Disciplined s)
    (hb : s.ph.ready = false) (ht : transition s = .next t) : Disciplined t := by
  obtain ⟨hp, rfl⟩ | ⟨hp, -, rfl⟩ | ⟨hp, ha, rfl⟩ | ⟨hp, v, -, rfl⟩ | ⟨hp, rfl⟩ | ⟨hp, -, ht⟩ |
    ⟨-, ha, rfl⟩ | ⟨hp, -, rfl⟩ | ⟨hp, ha, rfl⟩ | ⟨hp, -, rfl⟩ | ⟨hp, ha, rfl⟩ | ⟨hp, -, rfl⟩ :=
    transition_busy_cases ht hb
  · exact disciplined_prologue h hp
  · exact (disciplined_pollReady h hp).1
  · exact (disciplined_pollReady h hp).2 ha
  · exact disciplined_write h hp v
  · exact disciplined_settle h hp
  · exact disciplined_chkClean (s := s.pollAbort) hinv h hp ht
  · exact disciplined_raiseBusAbort h ha
  · exact (disciplined_pollQEmpty h hp).1
  · exact (disciplined_pollQEmpty h hp).2 ha
  · exact (disciplined_pollBusy h hp).1
  · exact (disciplined_pollBusy h hp).2 ha
  · exact disciplined_close h hp

/-- Settles O41: whatever a step is, the events it makes keep within the rules by what the monitor
remembers in the phase it starts from. -/
theorem stepKeepsBusDiscipline : Obligations.StepKeepsBusDiscipline := by
  unfold Obligations.StepKeepsBusDiscipline
  intro s t hinv h ht
  have hdrop : Disciplined s.sampleRst.dropHost := h
  obtain ⟨-, rfl⟩ | ⟨-, hr, hhost⟩ | ⟨-, hb, ht⟩ := step_cases ht
  · exact disciplined_resetBlock (s := s.sampleRst) h
  · obtain ⟨-, rfl⟩ | ⟨us, rest, -, rfl⟩ | ⟨w, rest, i, -, -, -, -, rfl⟩ |
      ⟨w, rest, v, -, -, rfl⟩ | ⟨w, rest, -, -, rfl⟩ := hhost
    · exact h
    · exact disciplined_hostWait hdrop us
    · exact disciplined_startTransfer hdrop hr _ _
    · exact disciplined_respond_zero (s := { s.sampleRst.dropHost with bl := v }) (st := .ok) hdrop
        nofun _
    · exact disciplined_respond_zero (st := .illegal) hdrop nofun _
  · exact disciplined_transition_busy (s := s.sampleRst) hinv h hb ht

/-- Settles O40: nothing has happened yet, in an empty port space. -/
theorem resetIsDisciplined : Obligations.ResetIsDisciplined := by
  unfold Obligations.ResetIsDisciplined
  exact ⟨⟨rfl, rfl, monitorFits_idle rfl⟩, Memory.wf_nil⟩

end Sys2Proof.Machine
end

section
/-! The laws of the frame encodings (spec/40_encoder.md R104, R105, R109). Every snapshot of a
triplet is the triplet's value with the enable bit cleared or set, so what any other line carries
can be read off the value. -/

namespace Sys2Proof.Machine

/-! ## The lines of the port byte under the mask constraint (R9) -/

/-- The enable bit, and the lines that a selector, the backlight and the data nibble use, are
apart from each other. -/
theorem masks_disjoint_of_wf {m : Masks} (h : m.wf = true) :
    m.en &&& m.rs = 0 ∧ m.en &&& m.bl = 0 ∧ m.rs &&& m.bl = 0 ∧ m.rs &&& 0xF0#8 = 0 ∧
      m.en &&& 0xF0#8 = 0 ∧ m.bl &&& 0xF0#8 = 0 := by
  obtain ⟨i, j, k, hij, hik, hjk, rfl⟩ := wf_masks_cases h
  revert i j k
  decide

theorem ctl_and_rs_of_wf {m : Masks} (h : m.wf = true) (rs : RegSel) (bl : Bool) :
    ctl m rs bl &&& m.rs = if rs = .data then m.rs else 0 := by
  obtain ⟨-, -, hrb, -⟩ := masks_disjoint_of_wf h
  cases rs <;> cases bl <;> simp [ctl, BitVec.and_or_distrib_right, BitVec.and_comm m.bl, hrb]

theorem ctl_and_bl_of_wf {m : Masks} (h : m.wf = true) (rs : RegSel) (bl : Bool) :
    ctl m rs bl &&& m.bl = if bl then m.bl else 0 := by
  obtain ⟨-, -, hrb, -⟩ := masks_disjoint_of_wf h
  cases rs <;> cases bl <;> simp [ctl, BitVec.and_or_distrib_right, hrb]

theorem ctl_and_highBits_of_wf {m : Masks} (h : m.wf = true) (rs : RegSel) (bl : Bool) :
    ctl m rs bl &&& 0xF0#8 = 0 := by
  obtain ⟨-, -, -, hr, -, hb⟩ := masks_disjoint_of_wf h
  cases rs <;> cases bl <;> simp [ctl, BitVec.and_or_distrib_right, hr, hb]

theorem ctl_and_unused (m : Masks) (rs : RegSel) (bl : Bool) :
    ctl m rs bl &&& unusedMask m = 0 := by
  ext i hi
  cases rs <;> cases bl <;> grind [ctl, unusedMask]

theorem en_and_unused (m : Masks) : m.en &&& unusedMask m = 0 := by
  ext i hi
  grind [unusedMask]

/-! ## A snapshot and the value of its triplet -/

/-- A snapshot of the triplet of value `x`, at index `i` of its frame. -/
def snapshotOf (m : Masks) (x : Byte) (i : Nat) : Byte :=
  if i % 3 = 1 then x ||| m.en else x &&& ~~~m.en

theorem getElem?_tri {m : Masks} {x v : Byte} {i : Nat} (h : (tri m x)[i]? = some v) :
    i < 3 ∧ v = snapshotOf m x i := by
  match i, h with
  | 0, h | 1, h | 2, h => simpa [tri, snapshotOf, eq_comm] using h

theorem getElem?_enc4 {m : Masks} {b v : Byte} {rs : RegSel} {bl : Bool} {i : Nat}
    (h : (enc4 m b rs bl)[i]? = some v) :
    (i < 3 ∧ v = snapshotOf m (highNibble b ||| ctl m rs bl) i) ∨
      (3 ≤ i ∧ v = snapshotOf m (lowNibble b ||| ctl m rs bl) i) := by
  rw [enc4, List.getElem?_append] at h
  split at h
  next hlt => exact .inl (getElem?_tri h)
  next hge =>
    replace hge : 3 ≤ i := Nat.le_of_not_lt hge
    obtain ⟨-, hv⟩ := getElem?_tri h
    refine .inr ⟨hge, hv.trans ?_⟩
    rw [snapshotOf, snapshotOf, show (tri m (highNibble b ||| ctl m rs bl)).length = 3 from rfl,
      show (i - 3) % 3 = i % 3 by omega]

/-- Every line but enable carries the triplet's value. -/
theorem snapshotOf_and {m : Masks} {k : Byte} (hk : m.en &&& k = 0) (x : Byte) (i : Nat) :
    snapshotOf m x i &&& k = x &&& k := by
  rw [snapshotOf]
  split
  · rw [BitVec.and_or_distrib_right, hk]
    exact BitVec.or_zero
  · rw [BitVec.and_assoc, BitVec.and_comm _ k, and_not_eq_self (BitVec.and_comm k _ ▸ hk)]

/-- The enable line is high at the middle snapshot alone. -/
theorem snapshotOf_and_en (m : Masks) (x : Byte) (i : Nat) :
    snapshotOf m x i &&& m.en = if i % 3 = 1 then m.en else 0 := by
  rw [snapshotOf]
  split
  · exact enable_set m x
  · exact enable_clear m x

/-! ## The laws (R104) -/

/-- In a frame every snapshot has the enable bit by its place in its triplet (R104 b). -/
theorem frame_and_en {m : Masks} {b : Byte} {rs : RegSel} {bl : Bool} {F : List Byte}
    (hF : F = enc8 m b rs bl ∨ F = enc4 m b rs bl) {i : Nat} {v : Byte} (hv : F[i]? = some v) :
    v &&& m.en = if i % 3 = 1 then m.en else 0 := by
  rcases hF with rfl | rfl
  · obtain ⟨-, rfl⟩ := getElem?_tri hv
    exact snapshotOf_and_en ..
  · obtain ⟨-, rfl⟩ | ⟨-, rfl⟩ := getElem?_enc4 hv <;> exact snapshotOf_and_en ..

/-- A frame ends with the last snapshot of a triplet, enable low (R104 d). -/
theorem frame_last_and_en {m : Masks} {b : Byte} {rs : RegSel} {bl : Bool} {F : List Byte}
    (hF : F = enc8 m b rs bl ∨ F = enc4 m b rs bl) {v : Byte} (hv : F.getLast? = some v) :
    v &&& m.en = 0 := by
  rw [List.getLast?_eq_getElem?] at hv
  rw [frame_and_en hF hv]
  rcases hF with rfl | rfl
  · rfl
  · rw [enc4_length]
    rfl

theorem and_not_or_self (x k : Byte) : x &&& ~~~k ||| k = x ||| k := by
  ext i hi
  grind

/-- The first and the last snapshot of a triplet are equal, and the middle one is the first with
enable set (R104 c). -/
theorem frame_triplets {m : Masks} {b : Byte} {rs : RegSel} {bl : Bool} {F : List Byte}
    (hF : F = enc8 m b rs bl ∨ F = enc4 m b rs bl) {k : Nat} (hk : 3 * k + 2 < F.length) :
    F[3 * k]? = F[3 * k + 2]? ∧ F[3 * k + 1]? = (F[3 * k]?).map (· ||| m.en) := by
  rcases hF with rfl | rfl
  · obtain rfl : k = 0 := by simp at hk; omega
    simp [enc8, tri, and_not_or_self]
  · obtain rfl | rfl : k = 0 ∨ k = 1 := by simp at hk; omega
    · simp [enc4, tri, and_not_or_self]
    · simp [enc4, tri, and_not_or_self]

/-- The control bits lie below the four data lines. -/
theorem nibble_or_ctl_and_highBits {m : Masks} (h : m.wf = true) (x : Byte) (rs : RegSel)
    (bl : Bool) : (x ||| ctl m rs bl) &&& 0xF0#8 = x &&& 0xF0#8 := by
  rw [BitVec.and_or_distrib_right, ctl_and_highBits_of_wf h]
  exact BitVec.or_zero

/-- A line of the low nibble sees of a FourBit triplet's value the control bits alone. -/
theorem nibble_or_ctl_and_low {k : Byte} (hk : k &&& 0xF0#8 = 0) (x c : Byte) :
    (x &&& 0xF0#8 ||| c) &&& k = c &&& k := by
  rw [BitVec.and_or_distrib_right, BitVec.and_assoc, BitVec.and_comm _ k, hk]
  simp

theorem unused_and_highBits (m : Masks) : unusedMask m &&& 0xF0#8 = 0 := by
  rw [unusedMask, BitVec.and_assoc, BitVec.and_comm (~~~_), ← BitVec.and_assoc]
  exact BitVec.zero_and

/-- What the lines below the data nibble carry in a FourBit triplet (R104 f). -/
theorem controlLines_of_nibble {m : Masks} (h : m.wf = true) (x : Byte) (rs : RegSel) (bl : Bool)
    (i : Nat) :
    let v := snapshotOf m (x &&& 0xF0#8 ||| ctl m rs bl) i
    v &&& m.rs = (if rs = .data then m.rs else 0) ∧ v &&& m.bl = (if bl then m.bl else 0) ∧
      v &&& unusedMask m = 0 := by
  obtain ⟨hers, hebl, -, hr, -, hb⟩ := masks_disjoint_of_wf h
  refine ⟨?_, ?_, ?_⟩
  · rw [snapshotOf_and hers, nibble_or_ctl_and_low hr, ctl_and_rs_of_wf h]
  · rw [snapshotOf_and hebl, nibble_or_ctl_and_low hb, ctl_and_bl_of_wf h]
  · rw [snapshotOf_and (en_and_unused m), nibble_or_ctl_and_low (unused_and_highBits m),
      ctl_and_unused]

/-- The data lines of a FourBit frame: the high nibble in the first triplet, the low one in the
second (R104 e). -/
theorem enc4_and_highBits {m : Masks} (h : m.wf = true) {b v : Byte} {rs : RegSel} {bl : Bool}
    {i : Nat} (hv : (enc4 m b rs bl)[i]? = some v) :
    (i ≤ 2 → v &&& 0xF0#8 = b &&& 0xF0#8) ∧ (3 ≤ i → v &&& 0xF0#8 = (b <<< 4) &&& 0xF0#8) := by
  obtain ⟨-, -, -, -, hen, -⟩ := masks_disjoint_of_wf h
  obtain ⟨hi, rfl⟩ | ⟨hi, rfl⟩ := getElem?_enc4 hv
  · refine ⟨fun _ => ?_, by omega⟩
    rw [snapshotOf_and hen, nibble_or_ctl_and_highBits h, highNibble,
      BitVec.and_assoc, BitVec.and_self]
  · refine ⟨by omega, fun _ => ?_⟩
    rw [snapshotOf_and hen, nibble_or_ctl_and_highBits h, lowNibble,
      BitVec.and_assoc, BitVec.and_self]

theorem enc4_controlLines {m : Masks} (h : m.wf = true) {b v : Byte} {rs : RegSel} {bl : Bool}
    {i : Nat} (hv : (enc4 m b rs bl)[i]? = some v) :
    v &&& m.rs = (if rs = .data then m.rs else 0) ∧ v &&& m.bl = (if bl then m.bl else 0) ∧
      v &&& unusedMask m = 0 := by
  obtain ⟨-, rfl⟩ | ⟨-, rfl⟩ := getElem?_enc4 hv
  · exact controlLines_of_nibble h b rs bl i
  · exact controlLines_of_nibble h (b <<< 4) rs bl i

/-- The lines of an EightBit frame other than enable carry the byte with the control bits beside it
(R104 g). -/
theorem enc8_and {m : Masks} {b v k : Byte} {rs : RegSel} {bl : Bool} {i : Nat}
    (hv : (enc8 m b rs bl)[i]? = some v) (hk : m.en &&& k = 0) :
    v &&& k = (b &&& k) ||| (ctl m rs bl &&& k) := by
  obtain ⟨-, rfl⟩ := getElem?_tri hv
  rw [snapshotOf_and hk, BitVec.and_or_distrib_right]

theorem enc8_lowNibble {m : Masks} (h : m.wf = true) {b v : Byte} {rs : RegSel} {bl : Bool}
    {i : Nat} (hv : (enc8 m b rs bl)[i]? = some v) :
    v &&& 0x0F#8 &&& ~~~m.en = ((b &&& 0x0F#8) ||| ctl m rs bl) &&& ~~~m.en := by
  have hdis : m.en &&& (0x0F#8 &&& ~~~m.en) = 0 := by
    ext i hi
    grind
  have hlow : ctl m rs bl &&& 0x0F#8 = ctl m rs bl :=
    and_not_eq_self (k := 0xF0#8) (ctl_and_highBits_of_wf h rs bl)
  rw [BitVec.and_assoc, enc8_and hv hdis, ← BitVec.and_assoc, ← BitVec.and_assoc, hlow,
    BitVec.and_or_distrib_right]

/-- Settles O5: the clauses are read off the snapshots, each the value of its triplet with the
enable bit cleared or set. -/
theorem encodingLaws : Obligations.EncodingLaws := by
  unfold Obligations.EncodingLaws
  intro m b rs bl h F8 F4 bit
  obtain ⟨-, -, -, -, hen, -⟩ := masks_disjoint_of_wf h
  refine ⟨rfl, rfl, fun F hF i v hv => ?_, fun F hF k hk => frame_triplets hF hk,
    fun F hF v hv => frame_last_and_en hF hv, fun i v hv => ?_, fun i v hv => ⟨?_, ?_⟩, ?_⟩
  · rw [frame_and_en hF hv]
    exact ⟨fun hi => if_neg (by omega), fun hi => if_pos hi⟩
  · obtain ⟨hhigh, hlow⟩ := enc4_and_highBits h hv
    obtain ⟨hrs, hbl, hun⟩ := enc4_controlLines h hv
    exact ⟨hhigh, hlow, by simpa [bit] using hrs, hbl, hun⟩
  · rw [enc8_and hv hen, ctl_and_highBits_of_wf h]
    exact BitVec.or_zero
  · simpa [bit, ctl, BitVec.or_assoc] using enc8_lowNibble h hv
  · rfl

theorem nibbles_join (b : Byte) : (b &&& 0xF0#8) ||| (((b <<< 4) &&& 0xF0#8) >>> 4) = b := by
  revert b
  decide

/-- Settles O6: the data lines of the two triplets carry the two nibbles, at whichever snapshot
they are read. -/
theorem decodeRecoversTheByte : Obligations.DecodeRecoversTheByte := by
  unfold Obligations.DecodeRecoversTheByte
  intro m b rs bl h
  have join (i j : Nat) (u v : Byte) (hi : i < 3) (hj : 3 ≤ j)
      (hu : (enc4 m b rs bl)[i]? = some u) (hv : (enc4 m b rs bl)[j]? = some v) :
      (u &&& 0xF0#8) ||| ((v &&& 0xF0#8) >>> 4) = b := by
    rw [(enc4_and_highBits h hu).1 (by omega), (enc4_and_highBits h hv).2 hj, nibbles_join]
  obtain ⟨-, -, -, -, hen, -⟩ := masks_disjoint_of_wf h
  refine ⟨join 1 4 _ _ (by omega) (by omega) rfl rfl, join, ?_⟩
  have hmiddle : decode8 (enc8 m b rs bl) = (b &&& 0xF0#8) ||| (ctl m rs bl &&& 0xF0#8) :=
    enc8_and (i := 1) rfl hen
  rw [hmiddle, ctl_and_highBits_of_wf h]
  exact BitVec.or_zero

/-- A byte has all of a line or nothing of it. -/
theorem and_bit_cases (j : Fin 4) (b : Byte) :
    b &&& 1#8 <<< j.val = 0 ∨ b &&& 1#8 <<< j.val = 1#8 <<< j.val := by
  revert j b
  decide

theorem or_line_eq {k b : Byte} (hk : b &&& k = 0 ∨ b &&& k = k) (c : Prop) [Decidable c] :
    (b &&& k) ||| (if c then k else 0) = if c ∨ b &&& k ≠ 0 then k else 0 := by
  by_cases hc : c
  · rcases hk with hk | hk <;> simp [hc, hk]
  · rcases hk with hk | hk <;> by_cases h0 : k = 0 <;> simp [hc, hk, h0]

/-- Settles O7: a line carries the byte's bit ORed with the one `ctl` gives it. -/
theorem wideLowNibbleActsOnControlLines : Obligations.WideLowNibbleActsOnControlLines := by
  unfold Obligations.WideLowNibbleActsOnControlLines
  intro m b rs bl i v h hv
  obtain ⟨hers, hebl, -⟩ := masks_disjoint_of_wf h
  have ⟨j, _, k, _, _, _, hm⟩ := wf_masks_cases h
  refine ⟨?_, ?_, ?_, ?_⟩
  · rw [enc8_and hv hers, ctl_and_rs_of_wf h, or_line_eq (hm ▸ and_bit_cases j b)]
  · rw [enc8_and hv hebl, ctl_and_bl_of_wf h, or_line_eq (hm ▸ and_bit_cases k b)]
  · rw [enc8_and hv (en_and_unused m), ctl_and_unused]
    exact BitVec.or_zero
  · have ⟨hi, _⟩ := getElem?_tri hv
    rw [frame_and_en (.inl rfl) hv, Nat.mod_eq_of_lt hi]

end Sys2Proof.Machine
end

section
/-! What a command at its accept and what a step leave unchanged (spec/10_state.md section 4,
spec/20_memory.md section 1), and the moves of `PH` (spec/41_transfer_engine.md R137). -/

namespace Sys2Proof.Machine

open Sys2Proof.Safety (PortReady Running)

theorem ready_eq_false_iff (p : Phase) : p.ready = false ↔ ¬ (p = .idle ∨ p = .held) := by
  rw [← ready_iff, Bool.not_eq_true]

/-! ## The accept -/

/-- Settles O14: a command is accepted through `whenReady`, which a busy port fails. -/
theorem busyPortAcceptsNothing : Obligations.BusyPortAcceptsNothing := by
  unfold Obligations.BusyPortAcceptsNothing
  intro i s hbusy
  have hr := (ready_eq_false_iff s.ph).2 hbusy
  obtain ⟨-, e⟩ | ⟨hr', -⟩ | ⟨hp, -⟩ | ⟨hr', -⟩ := exec_cases i s
  · exact e
  · simp [hr] at hr'
  · simp [hp] at hr
  · simp [hr] at hr'

/-- Settles O15: the start of a transfer, the refusal and SETBL each leave what is claimed of them,
and a busy port leaves everything. -/
theorem execFrame : Obligations.ExecFrame := by
  unfold Obligations.ExecFrame
  intro i s t h
  obtain ⟨-, e⟩ | ⟨-, hi, -, e⟩ | ⟨-, ⟨b, rfl⟩, e⟩ | ⟨-, v, rfl, e⟩ := exec_cases i s <;>
    cases e.symm.trans h
  · simp
  · refine ⟨rfl, rfl, rfl, rfl, fun _ => rfl, fun _ => rfl, ?_, ?_, ?_, fun _ => rfl⟩
    · rintro v rfl
      exact absurd rfl hi
    · rintro more rs b rfl
      exact ⟨rfl, rfl, rfl⟩
    · rintro b rfl
      exact ⟨rfl, rfl, rfl, rfl, rfl⟩
  · simp
  · simp

/-! ## A transition of the transfer engine, and a step -/

/-- What a transition of the transfer engine leaves: all that belongs to the command and to the
host, and the port space in every phase but WR. -/
structure EngineFrame (s t : State) : Prop where
  par : t.par = s.par
  targetAddr : t.targetAddr = s.targetAddr
  frame : t.frame = s.frame
  len : t.len = s.len
  more : t.more = s.more
  bl : t.bl = s.bl
  host : t.inp.host = s.inp.host
  rst : t.inp.rst = s.inp.rst
  mem : t.mem = s.mem ∨ s.ph = .wr ∧ ∃ v, t.mem = s.mem.write Config.portKey v

theorem engineFrame_of_chkClean {s t : State} (h : chkClean s = .next t) : EngineFrame s t := by
  obtain ⟨-, e⟩ | ⟨-, -, e⟩ | ⟨-, -, e⟩ | ⟨-, e⟩ := chkClean_cases s <;> cases e.symm.trans h <;>
    exact ⟨rfl, rfl, rfl, rfl, rfl, rfl, rfl, rfl, .inl rfl⟩

theorem engineFrame_of_transition {s t : State} (hb : s.ph.ready = false)
    (h : transition s = .next t) : EngineFrame s t := by
  obtain ⟨-, rfl⟩ | ⟨-, -, rfl⟩ | ⟨-, -, rfl⟩ | ⟨hp, v, -, rfl⟩ | ⟨-, rfl⟩ | ⟨-, -, h⟩ |
    ⟨-, -, rfl⟩ | ⟨-, -, rfl⟩ | ⟨-, -, rfl⟩ | ⟨-, -, rfl⟩ | ⟨-, -, rfl⟩ | ⟨-, -, rfl⟩ :=
    transition_busy_cases h hb
  case inr.inr.inr.inl => exact ⟨rfl, rfl, rfl, rfl, rfl, rfl, rfl, rfl, .inr ⟨hp, v, rfl⟩⟩
  case inr.inr.inr.inr.inr.inl =>
    have f := engineFrame_of_chkClean h
    exact ⟨f.par, f.targetAddr, f.frame, f.len, f.more, f.bl, f.host, f.rst,
      f.mem.imp_right fun ⟨hp, hv⟩ => ⟨hp, hv⟩⟩
  all_goals exact ⟨rfl, rfl, rfl, rfl, rfl, rfl, rfl, rfl, .inl rfl⟩

/-- Without reset a step in a busy phase is a transition of the transfer engine. -/
theorem transition_of_step_busy {s t : State} (h : step s = .next t) (hrst : s.rstAsserted = false)
    (hb : s.ph.ready = false) : transition s.sampleRst = .next t := by
  obtain ⟨hr, -⟩ | ⟨-, hr, -⟩ | ⟨-, -, ht⟩ := step_cases h
  · simp [hrst] at hr
  · simp [hb] at hr
  · exact ht

/-- What every step leaves. -/
theorem step_frame {s t : State} (h : step s = .next t) :
    t.par = s.par ∧ t.targetAddr = s.targetAddr ∧
      (t.mem = s.mem ∨ s.ph = .wr ∧ ∃ v, t.mem = s.mem.write Config.portKey v) := by
  obtain ⟨-, rfl⟩ | ⟨-, -, hhost⟩ | ⟨-, hb, ht⟩ := step_cases h
  · exact ⟨rfl, rfl, .inl rfl⟩
  · obtain ⟨-, rfl⟩ | ⟨us, rest, -, rfl⟩ | ⟨w, rest, i, -, -, -, -, rfl⟩ |
      ⟨w, rest, v, -, -, rfl⟩ | ⟨w, rest, -, -, rfl⟩ := hhost <;> exact ⟨rfl, rfl, .inl rfl⟩
  · have f := engineFrame_of_transition (s := s.sampleRst) hb ht
    exact ⟨f.par, f.targetAddr, f.mem⟩

/-- Settles O42: the one write of a step is to `PORT`, the one address of the canonical form. -/
theorem stepKeepsPortSpaceForm : Obligations.StepKeepsPortSpaceForm := by
  unfold Obligations.StepKeepsPortSpaceForm
  intro s t hwf h
  obtain ⟨-, -, hmem | ⟨-, v, hmem⟩⟩ := step_frame h <;> rw [hmem]
  · exact hwf
  · exact Memory.wf_write_port v hwf

/-- Settles O35: of all a step can be, a reset and an accepted SETBL alone write `BL`. -/
theorem onlySetblAndResetWriteBacklight : Obligations.OnlySetblAndResetWriteBacklight := by
  unfold Obligations.OnlySetblAndResetWriteBacklight
  intro s t h hbl
  obtain ⟨hrst, -⟩ | ⟨-, hr, hhost⟩ | ⟨-, hb, ht⟩ := step_cases h
  · exact .inl hrst
  · refine .inr ⟨(ready_iff _).1 hr, ?_⟩
    obtain ⟨-, rfl⟩ | ⟨us, rest, -, rfl⟩ | ⟨w, rest, i, -, -, -, -, rfl⟩ |
      ⟨w, rest, v, hw, hd, rfl⟩ | ⟨w, rest, -, -, rfl⟩ := hhost
    case inr.inr.inr.inl => exact ⟨w, rest, hw, hd⟩
    all_goals exact absurd rfl hbl
  · exact absurd (engineFrame_of_transition (s := s.sampleRst) hb ht).bl hbl

/-- Settles O36: with a ready port the host's next action opens a frame, continues one or leaves
the phase, and in a busy phase the cases of a transition name the next one. -/
theorem phaseMovesAreThoseOfTheTable : Obligations.PhaseMovesAreThoseOfTheTable := by
  unfold Obligations.PhaseMovesAreThoseOfTheTable
  intro s t h hrst
  obtain ⟨hr, -⟩ | ⟨-, hr, hhost⟩ | ⟨-, hb, ht⟩ := step_cases h
  · simp [hrst] at hr
  · obtain ⟨-, rfl⟩ | ⟨us, rest, -, rfl⟩ | ⟨w, rest, i, -, -, -, -, rfl⟩ |
      ⟨w, rest, v, -, -, rfl⟩ | ⟨w, rest, -, -, rfl⟩ := hhost <;>
      rcases (ready_iff _).1 hr with hp | hp <;> simp [hp]
  · obtain ⟨hp, rfl⟩ | ⟨hp, -, rfl⟩ | ⟨hp, -, rfl⟩ | ⟨hp, v, -, rfl⟩ | ⟨hp, rfl⟩ | ⟨hp, -, ht⟩ |
      ⟨hp | hp, -, rfl⟩ | ⟨hp, -, rfl⟩ | ⟨hp, -, rfl⟩ | ⟨hp, -, rfl⟩ | ⟨hp, -, rfl⟩ |
      ⟨hp, -, rfl⟩ := transition_busy_cases ht hb <;>
      rw [State.sampleRst_ph] at hp
    case inr.inr.inr.inr.inr.inr.inr.inl =>
      obtain ⟨-, e⟩ | ⟨-, -, e⟩ | ⟨-, -, e⟩ | ⟨-, e⟩ := chkClean_cases s.sampleRst.pollAbort <;>
        cases e.symm.trans ht <;> simp [hp]
    all_goals simp [hp]

/-! ## The abort samples, case by case -/

theorem phaseChk_of_clean {s : State} (h : s.abortAnswer = Config.abortNone) :
    phaseChk s = chkClean s.pollAbort := if_pos h

theorem phaseChk_of_abort {s : State} (h : s.abortAnswer ≠ Config.abortNone) :
    phaseChk s = .next (s.pollAbort.raiseBusAbort s.abortAnswer) := if_neg h

theorem phaseChkF_of_abort {s : State} (h : s.abortAnswer ≠ Config.abortNone) :
    phaseChkF s = .next (s.pollAbort.raiseBusAbort s.abortAnswer) := if_neg h

theorem chkClean_of_lt {s : State} (h : s.idx.toNat + 1 < s.len.toNat) :
    chkClean s = .next { s with idx := s.idx + 1, ph := .rdy } := if_pos h

theorem chkClean_of_last_open {s : State} (h : s.idx.toNat + 1 = s.len.toNat)
    (hm : s.more = true) :
    chkClean s =
      .next { s.respond .ok s.len Config.abortNone with idx := s.idx + 1, ph := .held } := by
  simp [chkClean, h, hm]

theorem chkClean_of_last_closed {s : State} (h : s.idx.toNat + 1 = s.len.toNat)
    (hm : s.more = false) : chkClean s = .next { s with idx := s.idx + 1, ph := .drainQ } := by
  simp [chkClean, h, hm]

theorem chkClean_of_gt {s : State} (h : s.len.toNat < s.idx.toNat + 1) :
    chkClean s = .fault .noTransition := by
  rw [chkClean, if_neg (by omega), if_neg (by omega)]

/-! ## No step reads the record of events -/

/-- The state with `past` before all the events it records. -/
def State.behind (s : State) (past : List Event) : State := { s with trace := s.trace ++ past }

section
variable (s : State) (past : List Event)

@[simp] theorem State.behind_frame : (s.behind past).frame = s.frame := rfl
@[simp] theorem State.behind_len : (s.behind past).len = s.len := rfl
@[simp] theorem State.behind_idx : (s.behind past).idx = s.idx := rfl
@[simp] theorem State.behind_ph : (s.behind past).ph = s.ph := rfl
@[simp] theorem State.behind_more : (s.behind past).more = s.more := rfl
@[simp] theorem State.behind_par : (s.behind past).par = s.par := rfl
@[simp] theorem State.behind_inp : (s.behind past).inp = s.inp := rfl
@[simp] theorem State.behind_readyAnswer : (s.behind past).readyAnswer = s.readyAnswer := rfl
@[simp] theorem State.behind_qEmptyAnswer : (s.behind past).qEmptyAnswer = s.qEmptyAnswer := rfl
@[simp] theorem State.behind_busyAnswer : (s.behind past).busyAnswer = s.busyAnswer := rfl
@[simp] theorem State.behind_abortAnswer : (s.behind past).abortAnswer = s.abortAnswer := rfl
@[simp] theorem State.behind_rstAsserted : (s.behind past).rstAsserted = s.rstAsserted := rfl

end

/-- The outcome with `past` before all the events of its next state. -/
def outcomeBehind (past : List Event) :
    Host.Outcome State Fault Refusal → Host.Outcome State Fault Refusal
  | .next t => .next (t.behind past)
  | .fault r => .fault r
  | .refused r => .refused r

theorem exec_behind (i : Instr) (s : State) (past : List Event) :
    exec i (s.behind past) = outcomeBehind past (exec i s) := by
  cases hr : s.ph.ready with
  | false =>
    have hb : ¬ PortReady s := (ready_eq_false_iff s.ph).1 hr
    rw [busyPortAcceptsNothing i s hb, busyPortAcceptsNothing i (s.behind past) hb]
    rfl
  | true =>
    cases i with
    | xfer8 more rs byte =>
      rw [exec_xfer8_eq_startTransfer hr, exec_xfer8_eq_startTransfer (s := s.behind past) hr]
      rfl
    | xfer4 more rs byte =>
      rw [exec_xfer4_eq_startTransfer hr, exec_xfer4_eq_startTransfer (s := s.behind past) hr]
      rfl
    | raw byte =>
      rcases (ready_iff _).1 hr with hp | hp
      · rw [exec_raw_eq_startTransfer hp, exec_raw_eq_startTransfer (s := s.behind past) hp]
        rfl
      · rw [exec_raw_of_held hp, exec_raw_of_held (s := s.behind past) hp]
        rfl
    | setbl v =>
      rw [exec_setbl_of_ready hr, exec_setbl_of_ready (s := s.behind past) hr]
      rfl

theorem phaseReady_behind (s : State) (past : List Event) :
    phaseReady (s.behind past) = outcomeBehind past (phaseReady s) := by
  simp only [phaseReady, State.behind_inp]
  split
  · rfl
  · rfl
  · split
    · exact exec_behind _ s.dropHost past
    · rfl

theorem chkClean_behind (s : State) (past : List Event) :
    chkClean (s.behind past) = outcomeBehind past (chkClean s) := by
  rcases lt_trichotomy (s.idx.toNat + 1) s.len.toNat with h | h | h
  · rw [chkClean_of_lt h, chkClean_of_lt (s := s.behind past) h]
    rfl
  · cases hm : s.more
    · rw [chkClean_of_last_closed h hm, chkClean_of_last_closed (s := s.behind past) h hm]
      rfl
    · rw [chkClean_of_last_open h hm, chkClean_of_last_open (s := s.behind past) h hm]
      rfl
  · rw [chkClean_of_gt h, chkClean_of_gt (s := s.behind past) h]
    rfl

theorem transition_behind (s : State) (past : List Event) :
    transition (s.behind past) = outcomeBehind past (transition s) := by
  unfold transition
  rw [State.behind_ph]
  split
  · exact phaseReady_behind s past
  · exact phaseReady_behind s past
  · simp [phaseAddr, outcomeBehind, State.behind, State.emitAll]
  · rw [phaseRdy, phaseRdy, State.behind_readyAnswer]
    cases s.readyAnswer <;> rfl
  · simp only [phaseWr, State.behind_frame, State.behind_idx]
    split <;> rfl
  · rfl
  · by_cases ha : s.abortAnswer = Config.abortNone
    · rw [phaseChk_of_clean ha, phaseChk_of_clean (s := s.behind past) ha]
      exact chkClean_behind s.pollAbort past
    · rw [phaseChk_of_abort ha, phaseChk_of_abort (s := s.behind past) ha]
      rfl
  · rw [phaseDrainQ, phaseDrainQ, State.behind_qEmptyAnswer]
    cases s.qEmptyAnswer <;> rfl
  · rw [phaseDrainB, phaseDrainB, State.behind_busyAnswer]
    cases s.busyAnswer <;> rfl
  · by_cases ha : s.abortAnswer = Config.abortNone
    · rw [phaseChkF_of_clean ha, phaseChkF_of_clean (s := s.behind past) ha]
      rfl
    · rw [phaseChkF_of_abort ha, phaseChkF_of_abort (s := s.behind past) ha]
      rfl

/-- A step from a state with a longer past is the step from the state, with that past. -/
theorem step_behind (s : State) (past : List Event) :
    step (s.behind past) = outcomeBehind past (step s) := by
  cases hw : s.par.wf with
  | false => simp [step, hw, outcomeBehind]
  | true =>
    cases hrst : s.rstAsserted with
    | false =>
      rw [step_eq_transition hw hrst, step_eq_transition (s := s.behind past) hw hrst]
      exact transition_behind s.sampleRst past
    | true =>
      simp only [step, resetOrTransition, State.behind_par, State.behind_rstAsserted, hw, hrst]
      rfl

/-- The state with nothing recorded yet. -/
def State.fresh (s : State) : State := { s with trace := [] }

/-- What a step records and the state it answers are those of the step with nothing recorded. -/
theorem step_fresh {s t : State} (h : step s = .next t) :
    ∃ u, step s.fresh = .next u ∧ t = u.behind s.trace := by
  have hs : step s = outcomeBehind s.trace (step s.fresh) := step_behind s.fresh s.trace
  cases hu : step s.fresh with
  | next u =>
    rw [h, hu] at hs
    exact ⟨u, rfl, Host.Outcome.next.inj hs⟩
  | fault r => simp [hu, h, outcomeBehind] at hs
  | refused r => simp [hu, h, outcomeBehind] at hs

/-- Settles O43: the new events are those of the step with nothing recorded, which any record is
put behind. -/
theorem historyIsNotRead : Obligations.HistoryIsNotRead := by
  unfold Obligations.HistoryIsNotRead
  intro s t other h
  obtain ⟨u, hu, rfl⟩ := step_fresh h
  refine ⟨u.trace, rfl, ?_⟩
  have := step_behind s.fresh other
  rwa [hu] at this

/-- Settles O34: a step changes what `step_frame` and, in a busy phase, the frame of the transfer
engine leave open, and puts its events before the record. -/
theorem stepFrame : Obligations.StepFrame := by
  unfold Obligations.StepFrame
  intro s t h
  obtain ⟨hpar, htarget, hmem⟩ := step_frame h
  obtain ⟨u, -, hu⟩ := step_fresh h
  refine ⟨hpar, htarget, fun hp => ?_, fun a ha => ?_, ⟨u.trace, congrArg State.trace hu⟩,
    fun hb hrst => ?_⟩
  · exact hmem.resolve_right fun ⟨hwr, _⟩ => hp hwr
  · obtain hmem | ⟨-, v, hmem⟩ := hmem <;> rw [hmem]
    exact Memory.read_write_other s.mem v ha
  · have hb := (ready_eq_false_iff s.ph).2 hb
    have f := engineFrame_of_transition (s := s.sampleRst) hb (transition_of_step_busy h hrst hb)
    exact ⟨f.frame, f.len, f.more, f.bl, f.host⟩

end Sys2Proof.Machine
end

section
/-! The remaining rows of the transition table (spec/41_transfer_engine.md R123, R128 to R130,
R136), the ready port (spec/30_encoding.md R80, R95), and the choices of the environment model. -/

namespace Sys2Proof.Machine

open Sys2Proof.Safety (Running PortReady)

/-! ## The ready port -/

theorem phaseReady_of_command {s : State} {w : Word} {rest : List HostAct} {i : Instr}
    (hhost : s.inp.host = .present w :: rest) (hd : decode w = .ok i) :
    phaseReady s = exec i s.dropHost := by
  simp only [phaseReady, hhost, hd]

theorem phaseReady_of_rest {s : State} (hhost : s.inp.host = []) : phaseReady s = .next s := by
  simp only [phaseReady, hhost]

theorem phaseReady_of_wait {s : State} {us : Nat} {rest : List HostAct}
    (hhost : s.inp.host = .wait us :: rest) :
    phaseReady s = .next (s.dropHost.emit (.hostWait us)) := by
  simp only [phaseReady, hhost]

/-- Settles O16: the step is the accept of the presented word. -/
theorem stepRunsTheDecodedCommand : Obligations.StepRunsTheDecodedCommand := by
  unfold Obligations.StepRunsTheDecodedCommand
  intro s w rest i hrun hready hhost hd
  rw [step_of_ready hrun hready, phaseReady_of_command (s := s.sampleRst) hhost hd,
    sampleRst_dropHost_of_host hhost]

theorem decode_of_decodeTableWord {nbits w : Nat} {i : Instr} (hn : nbits ≤ 16)
    (h : decodeTableWord nbits w = some i) : decode (BitVec.ofNat 16 (w % 2 ^ nbits)) = .ok i := by
  rw [decodeTableWord, if_pos hn] at h
  split at h
  next j hj => rw [hj, Option.some.inj h]
  next => cases h

/-- Settles O17: the placed word stands at a ready port with `rst` not asserted, so the step runs
it and uses up just what was placed. -/
theorem placedWordRunsNext : Obligations.PlacedWordRunsNext := by
  unfold Obligations.PlacedWordRunsNext
  intro s nbits w i hw hn hd
  have hready : PortReady (s.withFetchWord nbits w) := by
    refine (ready_iff _).1 ?_
    simp only [State.withFetchWord, State.presentNext]
    cases hp : s.ph <;> rfl
  rw [stepRunsTheDecodedCommand (s.withFetchWord nbits w) _ s.inp.host i ⟨hw, rfl⟩ hready rfl
    (decode_of_decodeTableWord hn hd)]
  simp only [State.withFetchWord, State.presentNext]
  cases hp : s.ph <;> rfl

/-- Settles O19: with a ready port and no word presented the step is the `rst` sample, and for a
host wait the record of it. -/
theorem blockRestsWithoutACommand : Obligations.BlockRestsWithoutACommand := by
  unfold Obligations.BlockRestsWithoutACommand
  intro s hrun hready
  rw [step_of_ready hrun hready]
  refine ⟨fun hhost => ?_, fun us rest hhost => ?_⟩
  · rw [phaseReady_of_rest (s := s.sampleRst) hhost, State.sampleRst]
  · rw [phaseReady_of_wait (s := s.sampleRst) hhost, sampleRst_dropHost_of_host hhost, State.emit]

/-! ## The transfer engine -/

theorem step_of_addr {s : State} (h : Running s) (hp : s.ph = .addr) :
    step s = phaseAddr s.sampleRst := by
  rw [step_eq_transition h.1 h.2, transition, State.sampleRst_ph, hp]

theorem step_of_chk {s : State} (h : Running s) (hp : s.ph = .chk) :
    step s = phaseChk s.sampleRst := by
  rw [step_eq_transition h.1 h.2, transition, State.sampleRst_ph, hp]

/-- Settles O20: the prologue's events come newest first in the record. -/
theorem prologueSelectsTheTarget : Obligations.PrologueSelectsTheTarget := by
  unfold Obligations.PrologueSelectsTheTarget
  intro s hrun hp
  rw [step_of_addr hrun hp, phaseAddr, State.emitAll, prologueEvents, State.sampleRst_par]
  cases s.par.enableToggle <;> rfl

/-- Settles O22: a list that is not used up answers with its head. -/
theorem pollsGetTheListedAnswers : Obligations.PollsGetTheListedAnswers := by
  unfold Obligations.PollsGetTheListedAnswers
  refine fun s => ⟨fun b bs h => ?_, fun b bs h => ?_, fun b bs h => ?_, fun a as h => ?_⟩
  · rw [State.readyAnswer, h, List.headD_cons]
  · rw [State.qEmptyAnswer, h, List.headD_cons]
  · rw [State.busyAnswer, h, List.headD_cons]
  · rw [State.abortAnswer, h, List.headD_cons]

/-- Settles O24: the write in WR is one write of the port space, at `PORT`. -/
theorem portHoldsTheByteHandedOver : Obligations.PortHoldsTheByteHandedOver := by
  unfold Obligations.PortHoldsTheByteHandedOver
  intro s v hrun hp hv
  rw [step_of_wr hrun hp, phaseWr_of_get? (s := s.sampleRst) hv]
  exact ⟨_, rfl, Memory.read_write_same s.mem _ v, fun a ha => Memory.read_write_other s.mem v ha⟩

/-- Settles O27: after the sample the three ends of `chkClean`, by the place of `IDX` and by
`MORE`. -/
theorem cleanSampleGoesOn : Obligations.CleanSampleGoesOn := by
  unfold Obligations.CleanSampleGoesOn
  intro s hrun hp hclean u
  have hpoll : s.sampleRst.pollAbort =
      { s with
        inp :=
          { s.inp with
            rst := s.inp.rst.tail, abort := s.inp.abort.tail, polls := s.inp.polls + 1 }
        trace := .pollAbort Config.abortNone :: s.trace } := by
    rw [State.pollAbort, sampleRst_abortAnswer, hclean]
    rfl
  rw [step_of_chk hrun hp, phaseChk_of_clean (s := s.sampleRst) hclean, hpoll]
  exact ⟨fun h => chkClean_of_lt h, fun h hm => chkClean_of_last_open h hm,
    fun h hm => chkClean_of_last_closed h hm⟩

/-- Settles O28: from both phases the bad sample is followed by the abort exit. -/
theorem abortSampleExits : Obligations.AbortSampleExits := by
  unfold Obligations.AbortSampleExits
  intro s hrun hp ha
  rcases hp with hp | hp
  · rw [step_of_chk hrun hp, phaseChk_of_abort (s := s.sampleRst) ha]
    rfl
  · rw [step_of_chkF hrun hp, phaseChkF_of_abort (s := s.sampleRst) ha]
    rfl

/-- Settles O32: the step is the reset of the block after its `rst` sample. -/
theorem resetInputWins : Obligations.ResetInputWins := by
  unfold Obligations.ResetInputWins
  intro s hw hrst
  exact ⟨s.sampleRst.resetBlock, step_next_iff.2 ⟨hw, .inl ⟨hrst, rfl⟩⟩, rfl, rfl, rfl, rfl, rfl,
    rfl, rfl, rfl, rfl, rfl, rfl, rfl, rfl⟩

/-! ## The short settle time -/

/-- The short wait is a count of the granularity, rounded up from the rise time. -/
theorem riseWaitUs_eq (p : Params) :
    riseWaitUs p = p.tRiseNs ⌈/⌉ (1000 * p.tGranUs) * p.tGranUs := rfl

/-- Settles O26: rounding a quotient up is adjoint to multiplication, so the count is the least
that reaches the rise time. -/
theorem riseWaitIsTheLeastMultiple : Obligations.RiseWaitIsTheLeastMultiple := by
  unfold Obligations.RiseWaitIsTheLeastMultiple
  intro p hg
  have adjoint (k : Nat) :
      p.tRiseNs ⌈/⌉ (1000 * p.tGranUs) ≤ k ↔ p.tRiseNs ≤ 1000 * (k * p.tGranUs) := by
    rw [ceilDiv_le_iff_le_mul (by omega), Nat.mul_assoc, Nat.mul_comm k]
  rw [riseWaitUs_eq]
  exact ⟨⟨_, rfl⟩, (adjoint _).1 le_rfl, fun k hk => Nat.mul_le_mul_right _ ((adjoint k).2 hk)⟩

end Sys2Proof.Machine
end

section
/-! The host's macros (spec/45_host_sequences.md): the composed commands, the words a macro
presents, the burst, and where a macro stops. -/

namespace Sys2Proof.Machine

open Sys2Proof.Safety

/-! ## The attributes and the composed commands (R170 to R174, R186) -/

/-- Settles O55: the starting values are fields of the configuration, which is checked for `LINES`
and for a dark start. -/
theorem defaultAttributesStartAsGiven : Obligations.DefaultAttributesStartAsGiven := by
  unfold Obligations.DefaultAttributesStartAsGiven
  refine ⟨?_, fun c hc => ?_⟩
  · intro lines cols fontH entry shift c
    refine ⟨rfl, ?_⟩
    simp [c, HostConfig.wf, HostConfig.linesLegal, HostConfig.startsDark, HostConfig.default,
      State.reset]
  · simp only [HostConfig.wf, HostConfig.startsDark, Bool.and_eq_true, beq_iff_eq] at hc
    exact ⟨hc.2, hc.2⟩

theorem attrsAfter_setBacklight (k : HostConst) (on : Bool) (a b : DisplayAttrs) :
    (setBacklight k on b).attrsAfter a = { a with backlight := on } := rfl

theorem attrsAfter_setDisplay (k : HostConst) (on : Bool) (a b : DisplayAttrs) :
    (setDisplay k on b).attrsAfter a = { a with displayOn := on } := rfl

theorem attrsAfter_setCursorVisible (k : HostConst) (on : Bool) (a b : DisplayAttrs) :
    (setCursorVisible k on b).attrsAfter a = { a with cursorOn := on } := rfl

theorem attrsAfter_setBlink (k : HostConst) (on : Bool) (a b : DisplayAttrs) :
    (setBlink k on b).attrsAfter a = { a with blinkOn := on } := rfl

/-- Settles O49: each setter writes one attribute, no two the same, and the composed command does
not read the backlight. -/
theorem displaySettersCommute : Obligations.DisplaySettersCommute := by
  unfold Obligations.DisplaySettersCommute
  intro k a p q after light display cursor blink
  simp only [light, display, cursor, blink, after, attrsAfter_setBacklight, attrsAfter_setDisplay,
    attrsAfter_setCursorVisible, attrsAfter_setBlink]
  simp [composeDisplayCommand]

/-- Settles O50: the clamp is what a row of `LINES` or more meets, and the two rows it leaves have
the offsets 0x00 and 0x40. -/
theorem cursorRowIsClamped : Obligations.CursorRowIsClamped := by
  unfold Obligations.CursorRowIsClamped
  intro c col row hlines
  have hlines : c.lines = 1 ∨ c.lines = 2 := by simpa [HostConfig.linesLegal] using hlines
  refine ⟨fun hrow => ?_, fun hconst hrow => ?_⟩
  · have hlast : clampRow c (c.lines - 1) = c.lines - 1 := if_neg (by omega)
    rw [cursorCommand, cursorCommand, hlast, clampRow, if_pos hrow]
  · rw [cursorCommand, clampRow, if_neg (by omega), hconst]
    have hmod (n : Nat) : BitVec.ofNat 8 (n % 256) = BitVec.ofNat 8 n :=
      BitVec.eq_of_toNat_eq (by simp)
    rw [hmod]
    obtain rfl | rfl : row = 0 ∨ row = 1 := by omega
    · rfl
    · rfl

/-! ## The burst (R90, R144) -/

/-- Settles O53: by induction on the commands before the last. -/
theorem burstLeavesOpenAllButTheLast : Obligations.BurstLeavesOpenAllButTheLast := by
  unfold Obligations.BurstLeavesOpenAllButTheLast
  refine fun cs c => ⟨?_, fun i _ hraw hset => ?_, ?_⟩
  · induction cs with
    | nil => rfl
    | cons d cs ih =>
      cases cs with
      | nil => rfl
      | cons e cs => simpa [burst] using ih
  · cases i with
    | xfer8 more rs byte => rfl
    | xfer4 more rs byte => rfl
    | raw byte => exact absurd rfl (hraw byte)
    | setbl v => exact absurd rfl (hset v)
  · cases c <;> rfl

/-! ## The words a macro presents (R193) -/

/-- XFER8 and XFER4, the commands of all macros but `init()` and `setBacklight`. -/
def IsXfer : Instr → Prop
  | .xfer8 _ _ _ => True
  | .xfer4 _ _ _ => True
  | .raw _ => False
  | .setbl _ => False

/-- A line that presents, if any word, that of a command with `P`, and changes, if any attribute,
another than the backlight. -/
def OrdinaryLine (P : Instr → Prop) : MacroStep → Prop
  | .assign c => ∀ a, (c.apply a).backlight = a.backlight
  | .act (.wait _) => True
  | .act (.present w) => ∃ i, P i ∧ encode i = w

/-- A macro of such lines. -/
def Ordinary (P : Instr → Prop) (m : Macro) : Prop := ∀ l ∈ m, OrdinaryLine P l

/-- Every word among the actions is that of a command with `P`. -/
def Presents (P : Instr → Prop) (acts : List HostAct) : Prop :=
  ∀ w, HostAct.present w ∈ acts → ∃ i, P i ∧ encode i = w

section
variable {P : Instr → Prop}

@[simp] theorem ordinaryLine_waitStep (us : Nat) : OrdinaryLine P (waitStep us) := trivial

theorem ordinaryLine_issueStep {i : Instr} (hi : P i) : OrdinaryLine P (issueStep i) := ⟨i, hi, rfl⟩

@[simp] theorem ordinaryLine_xfer4 (more : Bool) (rs : RegSel) (b : Byte) :
    OrdinaryLine IsXfer (issueStep (.xfer4 more rs b)) := ordinaryLine_issueStep trivial

@[simp] theorem ordinaryLine_sendCommand (b : Byte) : OrdinaryLine IsXfer (sendCommand b) :=
  ordinaryLine_xfer4 ..

@[simp] theorem ordinaryLine_sendData (b : Byte) : OrdinaryLine IsXfer (sendData b) :=
  ordinaryLine_xfer4 ..

@[simp] theorem ordinaryLine_sendWide (b : Byte) : OrdinaryLine IsXfer (sendWide b) :=
  ordinaryLine_issueStep trivial

theorem Ordinary.append {m n : Macro} (hm : Ordinary P m) (hn : Ordinary P n) :
    Ordinary P (m ++ n) :=
  fun l hl => (List.mem_append.1 hl).elim (hm l) (hn l)

theorem Ordinary.mono {Q : Instr → Prop} (h : ∀ i, P i → Q i) {m : Macro} (hm : Ordinary P m) :
    Ordinary Q m := by
  intro l hl
  match l, hm l hl with
  | .assign _, hc => exact hc
  | .act (.wait _), _ => trivial
  | .act (.present _), ⟨i, hi, hw⟩ => exact ⟨i, h i hi, hw⟩

theorem mem_acts_iff {m : Macro} {x : HostAct} : x ∈ m.acts ↔ .act x ∈ m := by
  induction m with
  | nil => simp
  | cons l m ih => cases l <;> simp [ih]

theorem Ordinary.presents {m : Macro} (hm : Ordinary P m) : Presents P m.acts :=
  fun _ hw => hm _ (mem_acts_iff.1 hw)

theorem Presents.noReserved {acts : List HostAct} (h : Presents P acts) : NoReserved acts := by
  intro w hw
  obtain ⟨i, -, hi⟩ := h w hw
  exact ⟨i, decode_eq_ok_iff.2 hi⟩

theorem Presents.noRaw (hP : ∀ b, ¬ P (.raw b)) {acts : List HostAct} (h : Presents P acts) :
    NoRaw acts := by
  intro w b hw hd
  obtain ⟨i, hi, he⟩ := h w hw
  rw [decode_eq_ok_iff.2 he] at hd
  cases hd
  exact hP b hi

theorem Presents.append {xs ys : List HostAct} (hx : Presents P xs) (hy : Presents P ys) :
    Presents P (xs ++ ys) :=
  fun w hw => (List.mem_append.1 hw).elim (hx w) (hy w)

theorem Presents.mono {Q : Instr → Prop} (h : ∀ i, P i → Q i) {acts : List HostAct}
    (hx : Presents P acts) : Presents Q acts := by
  intro w hw
  obtain ⟨i, hi, he⟩ := hx w hw
  exact ⟨i, h i hi, he⟩

theorem presents_wait_cons (us : Nat) {acts : List HostAct} (h : Presents P acts) :
    Presents P (.wait us :: acts) := by
  intro w hw
  rcases List.mem_cons.1 hw with e | hw
  · cases e
  · exact h w hw

theorem presents_issue_cons {i : Instr} (hi : P i) {acts : List HostAct} (h : Presents P acts) :
    Presents P (issue i :: acts) := by
  intro w hw
  rcases List.mem_cons.1 hw with e | hw
  · exact ⟨i, hi, (HostAct.present.inj e).symm⟩
  · exact h w hw

end

theorem issueDisplay_ordinary (k : HostConst) (a : DisplayAttrs) :
    Ordinary IsXfer (issueDisplay k a) := by
  simp [Ordinary, issueDisplay]

/-- Steps 3 to 8 of `init()`, between its raw byte and `setBacklight(true)`. -/
def initTransfers (c : HostConfig) (a : DisplayAttrs) : Macro :=
  let k := c.const
  [waitStep k.tCmdUs] ++
  [sendWide k.func8bitWake, waitStep k.tWakeUs, sendWide k.func8bitWake, waitStep k.tWakeUs,
    sendWide k.func8bitWake, waitStep k.tCmdUs] ++
  [sendWide k.funcTo4bit, waitStep k.tCmdUs] ++
  [issueStep (.xfer4 true .instruction (functionSet c)), sendCommand k.displayCmdBase,
    waitStep k.tCmdUs] ++
  [sendCommand k.clearCmd, waitStep k.tClearUs] ++
  [sendCommand (composeEntryModeCommand k a), waitStep k.tCmdUs]

theorem initSequence_eq (c : HostConfig) (a : DisplayAttrs) :
    initSequence c a =
      [waitStep c.const.tPowerUs, issueStep (.raw c.const.rawBlOff)] ++ initTransfers c a ++
        setBacklight c.const true a := by
  simp [initSequence, initTransfers]

theorem initTransfers_ordinary (c : HostConfig) (a : DisplayAttrs) :
    Ordinary IsXfer (initTransfers c a) := by
  simp [Ordinary, initTransfers]

/-- Every macro is `init()`, or `setBacklight`, or transfers alone. -/
theorem allMacros_cases {c : HostConfig} {a : DisplayAttrs} {on : Bool} {col row slot len : Nat}
    {data : List Byte} {bitmap : Vector Byte 8} {m : Macro}
    (hm : m ∈ allMacros c a on col row slot len data bitmap) :
    m = initSequence c a ∨ m = setBacklight c.const on a ∨ Ordinary IsXfer m := by
  simp only [allMacros, List.mem_cons, List.not_mem_nil, or_false] at hm
  refine hm.imp_right (Or.imp_right ?_)
  rintro (rfl | rfl | rfl | rfl | rfl | rfl | rfl | rfl | rfl)
  · exact .append (by simp [Ordinary, OrdinaryLine]) (issueDisplay_ordinary _ _)
  · exact .append (by simp [Ordinary, OrdinaryLine]) (issueDisplay_ordinary _ _)
  · exact .append (by simp [Ordinary, OrdinaryLine]) (issueDisplay_ordinary _ _)
  · simp [Ordinary, setCursorAt]
  · simp [Ordinary, printBytes]
  · simp [Ordinary, clearDisplay]
  · simp [Ordinary, clearLine]
  · simp [Ordinary, createChar]
  · simp [Ordinary, shiftDisplay]

/-- A command but RAW. -/
def NotRaw (i : Instr) : Prop := ∀ b, i ≠ .raw b

theorem notRaw_of_isXfer (i : Instr) (h : IsXfer i) : NotRaw i := by
  rintro b rfl
  exact h

theorem setBacklight_presents (k : HostConst) (on : Bool) (a : DisplayAttrs) :
    Presents NotRaw (setBacklight k on a).acts :=
  presents_issue_cons nofun ((issueDisplay_ordinary k _).mono notRaw_of_isXfer).presents

/-- Settles O52: the words of every macro are encoded commands, of which RAW is one in `init()`
alone, where it stands before all others. -/
theorem macrosIssueOnlyCommands : Obligations.MacrosIssueOnlyCommands := by
  unfold Obligations.MacrosIssueOnlyCommands
  intro c a on col row slot len data bitmap
  have hnoRaw (b : Byte) : ¬ NotRaw (.raw b) := fun h => h b rfl
  have hrest := ((initTransfers_ordinary c a).mono notRaw_of_isXfer).presents.append
    (setBacklight_presents c.const true a)
  have hinit : (initSequence c a).acts = .wait c.const.tPowerUs :: issue (.raw c.const.rawBlOff) ::
      ((initTransfers c a).acts ++ (setBacklight c.const true a).acts) := by
    rw [initSequence_eq, Macro.acts_append, Macro.acts_append]
    rfl
  refine ⟨fun m hm => ?_, _, hinit, hrest.noRaw hnoRaw⟩
  obtain rfl | rfl | hm := allMacros_cases hm
  · refine ⟨?_, absurd rfl⟩
    have hall : Presents (fun _ => True) (initSequence c a).acts :=
      hinit ▸ presents_wait_cons _ (presents_issue_cons trivial (hrest.mono fun _ _ => trivial))
    exact hall.noReserved
  · have h := setBacklight_presents c.const on a
    exact ⟨h.noReserved, fun _ => h.noRaw hnoRaw⟩
  · have h := (hm.mono notRaw_of_isXfer).presents
    exact ⟨h.noReserved, fun _ => h.noRaw hnoRaw⟩

theorem glyphCommand_table (slot : Nat) :
    glyphCommand HostConst.table slot = BitVec.ofNat 8 (0x40 + 8 * (slot % 8)) := by
  have hslot := Nat.mod_lt slot (show 8 > 0 by decide)
  rw [glyphCommand]
  generalize slot % 8 = k at *
  interval_cases k <;> rfl

/-- Settles O51: the data words are the encoded XFER4 D commands of the bitmap's bytes. -/
theorem glyphBytesAreSentAsGiven : Obligations.GlyphBytesAreSentAsGiven := by
  unfold Obligations.GlyphBytesAreSentAsGiven
  intro slot bitmap m bl hm
  refine ⟨bitmap.toList.map fun b => encode (.xfer4 false .data b), ?_, by simp, ?_⟩
  · rw [createChar, glyphCommand_table, List.map_map]
    rfl
  · intro k w b hw hb
    rw [List.getElem?_map, hb] at hw
    obtain rfl := Option.some.inj hw
    exact ⟨decode_encode _, (decodeRecoversTheByte m b .data bl hm).1⟩

/-! ## The wait that a clean command asks for (R140, R250) -/

@[simp] theorem requestedWait_append (xs ys : List Event) :
    requestedWait (xs ++ ys) = requestedWait xs + requestedWait ys := by
  induction xs with
  | nil => simp [requestedWait]
  | cons x xs ih => cases x <;> simp [requestedWait, ih, Nat.add_assoc]

@[simp] theorem requestedWait_prologueEvents (p : Params) (target : Addr) :
    requestedWait (prologueEvents p target) = 0 := by
  rw [prologueEvents]
  split <;> rfl

@[simp] theorem requestedWait_endEvents (more : Bool) (n : Nat) :
    requestedWait (endEvents more n) = 0 := by
  cases more <;> rfl

/-- Each snapshot asks for the settle wait of its index. -/
theorem requestedWait_bytesEvents (p : Params) (more : Bool) (n i : Nat) (bs : List Byte) :
    requestedWait (bytesEvents p more n i bs) =
      ((List.range' i bs.length).map (settleUs p)).sum := by
  induction bs generalizing i with
  | nil => rfl
  | cons v vs ih =>
    simp [bytesEvents, byteEvents, requestedWait, ih, List.range'_succ]

theorem requestedWait_cleanTrace (p : Params) (target : Addr) (opened more : Bool)
    (bs : List Byte) :
    requestedWait (cleanTrace p target opened more bs) =
      ((List.range' 0 bs.length).map (settleUs p)).sum := by
  cases opened <;> simp [cleanTrace, requestedWait_bytesEvents]

/-- Settles O48: the settle waits of one triplet, of two, and of the single snapshot, summed. -/
theorem requestedWaitOfACleanCommand : Obligations.RequestedWaitOfACleanCommand := by
  unfold Obligations.RequestedWaitOfACleanCommand
  intro p target opened more bs
  rw [requestedWait_cleanTrace]
  refine ⟨?_, fun h => ?_⟩
  · rintro (h | h) <;> simp [h, List.range', settleUs] <;> omega
  · simp [h, settleUs]

/-! ## A macro line by line (R192) -/

/-- A macro followed by another: the other runs on where the first ran to its end. -/
theorem runMacro_append (fuel : Nat) (m n : Macro) (a : DisplayAttrs) (s : State) :
    runMacro fuel (m ++ n) a s = (runMacro fuel m a s).bind fun e =>
      if e.stoppedAt = none then runMacro fuel n e.attrs e.machine else some e := by
  induction m generalizing a s with
  | nil => simp [runMacro]
  | cons l m ih =>
    match l with
    | .assign c => simpa [runMacro] using ih (c.apply a) s
    | .act (.wait us) =>
      simp only [List.cons_append, runMacro]
      split
      · rfl
      · exact ih _ _
    | .act (.present w) =>
      simp only [List.cons_append, runMacro]
      split
      · rfl
      · split
        · exact ih _ _
        · rfl

/-- A macro that runs to its end has made all its attribute changes. -/
theorem attrs_of_runMacro_end {fuel : Nat} {m : Macro} {a : DisplayAttrs} {s : State} {e : MacroEnd}
    (h : runMacro fuel m a s = some e) (hend : e.stoppedAt = none) : e.attrs = m.attrsAfter a := by
  induction m generalizing a s with
  | nil => cases h; rfl
  | cons l m ih =>
    match l with
    | .assign c => exact ih h
    | .act (.wait us) =>
      simp only [runMacro] at h
      split at h
      · cases h
      · exact ih h
    | .act (.present w) =>
      simp only [runMacro] at h
      split at h
      · cases h
      · split at h
        · exact ih h
        · cases h
          cases hend

/-- A macro that stops does so at a command whose response was not OK, and has made the attribute
changes of the lines before it. -/
theorem runMacro_stop {fuel : Nat} {m : Macro} {a : DisplayAttrs} {s : State} {e : MacroEnd}
    {r : Response} (h : runMacro fuel m a s = some e) (hstop : e.stoppedAt = some r) :
    r.st ≠ .ok ∧ ∃ before w rest, m = before ++ .act (.present w) :: rest ∧
      e.attrs = Macro.attrsAfter before a ∧
      ∃ t, runMacro fuel before a s =
          some { stoppedAt := none, attrs := e.attrs, machine := t } ∧
        toResponse fuel (t.hostDoes (.present w)) = some (r, e.machine) := by
  induction m generalizing a s with
  | nil => cases h; cases hstop
  | cons l m ih =>
    match l with
    | .assign c =>
      obtain ⟨hr, before, w, rest, rfl, hattrs, t, hrun, hresp⟩ := ih h
      exact ⟨hr, .assign c :: before, w, rest, rfl, hattrs, t, hrun, hresp⟩
    | .act (.wait us) =>
      simp only [runMacro] at h
      split at h
      next => cases h
      next u hu =>
        obtain ⟨hr, before, w, rest, rfl, hattrs, t, hrun, hresp⟩ := ih h
        exact ⟨hr, .act (.wait us) :: before, w, rest, rfl, hattrs, t, by simp [runMacro, hu, hrun],
          hresp⟩
    | .act (.present w) =>
      simp only [runMacro] at h
      split at h
      next => cases h
      next q u hu =>
        split at h
        next hq =>
          obtain ⟨hr, before, w', rest, rfl, hattrs, t, hrun, hresp⟩ := ih h
          exact ⟨hr, .act (.present w) :: before, w', rest, rfl, hattrs, t,
            by simp [runMacro, hu, hq, hrun], hresp⟩
        next hq =>
          cases h
          cases hstop
          exact ⟨hq, [], w, m, rfl, rfl, s, rfl, hu⟩

/-- Settles O54: a macro that stops ends as it does whatever follows it, and one that runs to its
end goes on with it. -/
theorem macroStopsAtTheFirstError : Obligations.MacroStopsAtTheFirstError := by
  unfold Obligations.MacroStopsAtTheFirstError
  intro fuel m next a s e h
  refine ⟨fun r hstop => ?_, fun hend => ⟨attrs_of_runMacro_end h hend, ?_⟩⟩
  · obtain ⟨hr, hwhere⟩ := runMacro_stop h hstop
    exact ⟨hr, by simp [runMacro_append, h, hstop], hwhere⟩
  · simp [runMacro_append, h, hend]

/-- The steps of `init()` before the ninth. -/
def initBeforeBacklight (c : HostConfig) (a : DisplayAttrs) : Macro :=
  [waitStep c.const.tPowerUs, issueStep (.raw c.const.rawBlOff)] ++ initTransfers c a

theorem initBeforeBacklight_eq_map_act (c : HostConfig) (a : DisplayAttrs) :
    initBeforeBacklight c a = (initBeforeBacklight c a).acts.map .act := rfl

/-- Settles O57: the first eight steps are actions alone, and so are the lines before any command
at which they stop. -/
theorem initChangesBacklightAtStepNine : Obligations.InitChangesBacklightAtStepNine := by
  unfold Obligations.InitChangesBacklightAtStepNine
  intro c a
  have hsplit : initSequence c a = initBeforeBacklight c a ++ setBacklight c.const true a :=
    initSequence_eq c a
  refine ⟨initBeforeBacklight c a, hsplit, ?_, fun fuel s e r h hstop => ?_⟩
  · rw [initBeforeBacklight_eq_map_act, Macro.attrsAfter_of_actions]
  · obtain ⟨-, before, w, rest, hbefore, hattrs, -⟩ := runMacro_stop h hstop
    rw [initBeforeBacklight_eq_map_act, List.map_eq_append_iff] at hbefore
    obtain ⟨xs, ys, -, rfl, -⟩ := hbefore
    rw [hsplit]
    exact ⟨by simp [runMacro_append, h, hstop], hattrs.trans (Macro.attrsAfter_of_actions xs a)⟩

end Sys2Proof.Machine
end

section
/-! The host's `backlight` and the block's `BL` (spec/45_host_sequences.md R170): what the block
does with `BL` between a word and its response, and that every macro keeps the two equal. -/

namespace Sys2Proof.Machine

open Sys2Proof.Safety

/-! ## From a word to its response -/

/-- The transfer engine responds exactly when it makes the port ready again. -/
theorem newResponse_isSome_of_transition {s t : State} (hb : s.ph.ready = false)
    (h : transition s = .next t) : (newResponse s t).isSome = t.ph.ready := by
  obtain ⟨hp, rfl⟩ | ⟨hp, -, rfl⟩ | ⟨hp, -, rfl⟩ | ⟨hp, v, -, rfl⟩ | ⟨hp, rfl⟩ | ⟨hp, -, h⟩ |
    ⟨-, -, rfl⟩ | ⟨hp, -, rfl⟩ | ⟨hp, -, rfl⟩ | ⟨hp, -, rfl⟩ | ⟨hp, -, rfl⟩ | ⟨-, -, rfl⟩ :=
    transition_busy_cases h hb
  case inr.inr.inr.inr.inr.inl =>
    obtain ⟨-, e⟩ | ⟨-, -, e⟩ | ⟨-, -, e⟩ | ⟨-, e⟩ := chkClean_cases s.pollAbort <;>
      cases e.symm.trans h <;> simp [newResponse, Phase.ready]
  all_goals simp_all [newResponse, Phase.ready, prologueEvents]
  omega

theorem newResponse_of_trace_eq {s t : State} (h : t.trace = s.trace) : newResponse s t = none := by
  simp [newResponse, h]

theorem newResponse_of_respond {s t : State} {st : Status} {n : Cnt} {r : AbortCode}
    (h : t.trace = .respond st n r :: s.trace) :
    newResponse s t = some { st := st, n := n, r := r } := by
  simp [newResponse, h]

theorem startTransfer_busy (s : State) (bs : List Byte) (more : Bool) :
    (s.startTransfer bs more).ph.ready = false := by
  rcases startTransfer_ph_cases s bs more with hp | hp <;> rw [hp] <;> rfl

/-- The port is ready, `rst` is never asserted, and `BL` is `bl`. -/
structure RestsWith (bl : Bool) (s : State) : Prop where
  ready : s.ph.ready = true
  rst : s.inp.rst = []
  bl : s.bl = bl

theorem rstAsserted_of_nil {s : State} (h : s.inp.rst = []) : s.rstAsserted = false := by
  rw [State.rstAsserted, h]
  rfl

/-- A transfer in progress ends with the port ready and `BL` as it was. -/
theorem toResponse_busy {fuel : Nat} {s t : State} {r : Response} (hb : s.ph.ready = false)
    (hrst : s.inp.rst = []) (h : toResponse fuel s = some (r, t)) : RestsWith s.bl t := by
  induction fuel generalizing s with
  | zero => cases h
  | succ fuel ih =>
    rw [toResponse] at h
    split at h
    next u hu =>
      have hu := transition_of_step_busy hu (rstAsserted_of_nil hrst) hb
      have f := engineFrame_of_transition (s := s.sampleRst) hb hu
      have hready : (newResponse s u).isSome = u.ph.ready :=
        newResponse_isSome_of_transition (s := s.sampleRst) hb hu
      have hurst : u.inp.rst = [] := by rw [f.rst, State.sampleRst_inp, hrst]; rfl
      split at h
      next q hq =>
        cases h
        rw [hq] at hready
        exact ⟨hready.symm, hurst, f.bl⟩
      next hq =>
        rw [hq] at hready
        obtain ⟨h1, h2, h3⟩ := ih hready.symm hurst h
        exact ⟨h1, h2, h3.trans f.bl⟩
    next => cases h
    next => cases h

/-- The latch after a command. -/
def latchAfter : Instr → Bool → Bool
  | .setbl v, _ => v
  | .xfer8 _ _ _, bl => bl
  | .xfer4 _ _ _, bl => bl
  | .raw _, bl => bl

theorem latchAfter_of_ne_setbl {i : Instr} (h : ∀ v, i ≠ .setbl v) (bl : Bool) :
    latchAfter i bl = bl := by
  cases i with
  | setbl v => exact absurd rfl (h v)
  | _ => rfl

/-- The state in which a command is accepted that the host presents alone. -/
def State.accepting (s : State) : State :=
  { s with inp := { s.inp with host := [], rst := s.inp.rst.tail } }

theorem exec_of_step_hostDoes {s u : State} {i : Instr} (hr : s.ph.ready = true)
    (hrst : s.inp.rst = []) (h : step (s.hostDoes (issue i)) = .next u) :
    exec i s.accepting = .next u := by
  have hw : s.par.wf = true := (step_next_iff.1 h).1
  rw [← h]
  exact (stepRunsTheDecodedCommand (s.hostDoes (issue i)) (encode i) [] i
    ⟨hw, rstAsserted_of_nil hrst⟩ ((ready_iff _).1 hr) rfl (decode_encode i)).symm

/-- A command is answered with the port ready, and `BL` is what the command leaves. -/
theorem toResponse_command {fuel : Nat} {s t : State} {i : Instr} {r : Response} {bl : Bool}
    (hs : RestsWith bl s) (h : toResponse fuel (s.hostDoes (issue i)) = some (r, t)) :
    RestsWith (latchAfter i bl) t := by
  obtain ⟨hr, hrst, rfl⟩ := hs
  cases fuel with
  | zero => cases h
  | succ fuel =>
    rw [toResponse] at h
    split at h
    next u hu =>
      have hexec := exec_of_step_hostDoes hr hrst hu
      have htail : s.inp.rst.tail = [] := by rw [hrst]; rfl
      obtain ⟨hb, -⟩ | ⟨-, hi, -, e⟩ | ⟨-, ⟨b, rfl⟩, e⟩ | ⟨-, v, rfl, e⟩ :=
        exec_cases i s.accepting
      · exact absurd (hr.symm.trans hb) nofun
      · cases e.symm.trans hexec
        rw [newResponse_of_trace_eq (s := s.hostDoes (issue i))
          (t := s.accepting.startTransfer _ _) rfl] at h
        rw [latchAfter_of_ne_setbl (by rintro v rfl; exact hi rfl)]
        have hend := toResponse_busy (startTransfer_busy s.accepting _ _) htail h
        exact hend
      · cases e.symm.trans hexec
        rw [newResponse_of_respond rfl] at h
        cases h
        exact ⟨hr, htail, rfl⟩
      · cases e.symm.trans hexec
        rw [newResponse_of_respond rfl] at h
        cases h
        exact ⟨hr, htail, rfl⟩
    next => cases h
    next => cases h

theorem toHostDone_of_done {fuel : Nat} {s : State} (h : s.inp.host = []) :
    toHostDone fuel s = some s := by
  cases fuel <;> simp [toHostDone, h]

/-- A host wait uses itself up and leaves the port as it is. -/
theorem toHostDone_wait {fuel : Nat} {s t : State} {us : Nat} {bl : Bool} (hs : RestsWith bl s)
    (h : toHostDone fuel (s.hostDoes (.wait us)) = some t) : RestsWith bl t := by
  obtain ⟨hr, hrst, rfl⟩ := hs
  cases fuel with
  | zero => cases h
  | succ fuel =>
    rw [toHostDone, if_neg (by simp)] at h
    split at h
    next u hu =>
      have hw : s.par.wf = true := (step_next_iff.1 hu).1
      rw [(blockRestsWithoutACommand (s.hostDoes (.wait us)) ⟨hw, rstAsserted_of_nil hrst⟩
        ((ready_iff _).1 hr)).2 us [] rfl] at hu
      cases hu
      rw [toHostDone_of_done rfl] at h
      cases h
      exact ⟨hr, by simp [hrst], rfl⟩
    next => cases h
    next => cases h

/-! ## The macros -/

/-- A macro that starts with the port ready and `backlight` equal to `BL` ends so. -/
def KeepsMirror (m : Macro) : Prop :=
  ∀ (fuel : Nat) (a : DisplayAttrs) (s : State) (e : MacroEnd), RestsWith a.backlight s →
    runMacro fuel m a s = some e → RestsWith e.attrs.backlight e.machine

theorem KeepsMirror.append {m n : Macro} (hm : KeepsMirror m) (hn : KeepsMirror n) :
    KeepsMirror (m ++ n) := by
  intro fuel a s e hs h
  rw [runMacro_append] at h
  obtain ⟨e₁, h₁, h⟩ := Option.bind_eq_some_iff.1 h
  have hs₁ := hm fuel a s e₁ hs h₁
  split at h
  · exact hn fuel _ _ e hs₁ h
  · cases h
    exact hs₁

theorem keepsMirror_nil : KeepsMirror [] := by
  intro fuel a s e hs h
  cases h
  exact hs

theorem keepsMirror_assign {c : AttrChange} (hc : ∀ a, (c.apply a).backlight = a.backlight) :
    KeepsMirror [.assign c] := by
  intro fuel a s e hs h
  cases h
  exact (hc a).symm ▸ hs

theorem keepsMirror_wait (us : Nat) : KeepsMirror [.act (.wait us)] := by
  intro fuel a s e hs h
  simp only [runMacro] at h
  split at h
  next => cases h
  next t ht =>
    cases h
    exact toHostDone_wait hs ht

theorem keepsMirror_issue {i : Instr} (hi : ∀ v, i ≠ .setbl v) : KeepsMirror [issueStep i] := by
  intro fuel a s e hs h
  simp only [runMacro, issueStep, issue] at h
  split at h
  next => cases h
  next r t ht =>
    have ht := toResponse_command hs ht
    rw [latchAfter_of_ne_setbl hi] at ht
    split at h <;> cases h <;> exact ht

theorem keepsMirror_of_ordinary {P : Instr → Prop} (hP : ∀ v, ¬ P (.setbl v)) {m : Macro}
    (hm : Ordinary P m) : KeepsMirror m := by
  induction m with
  | nil => exact keepsMirror_nil
  | cons l m ih =>
    refine KeepsMirror.append (m := [l]) ?_ (ih fun l hl => hm l (List.mem_cons_of_mem _ hl))
    match l, hm l List.mem_cons_self with
    | .assign c, hc => exact keepsMirror_assign hc
    | .act (.wait us), _ => exact keepsMirror_wait us
    | .act (.present _), ⟨i, hi, rfl⟩ => exact keepsMirror_issue fun v hv => hP v (hv ▸ hi)

theorem keepsMirror_switch (on : Bool) :
    KeepsMirror [.assign (.backlight on), issueStep (.setbl on)] := by
  intro fuel a s e hs h
  simp only [runMacro, issueStep, issue] at h
  split at h
  next => cases h
  next r t ht =>
    have ht := toResponse_command hs ht
    split at h <;> cases h <;> exact ht

theorem keepsMirror_setBacklight (k : HostConst) (on : Bool) (a : DisplayAttrs) :
    KeepsMirror (setBacklight k on a) :=
  (keepsMirror_switch on).append
    (keepsMirror_of_ordinary (fun _ h => h) (issueDisplay_ordinary k _))

/-- Settles O56: lines that neither present SETBL nor change the backlight leave both, and the two
lines of `setBacklight` that do change both to the same value. -/
theorem macrosKeepBacklightMirrored : Obligations.MacrosKeepBacklightMirrored := by
  unfold Obligations.MacrosKeepBacklightMirrored
  intro c a on col row slot len data bitmap fuel s e hready hrst hmirror m hm h
  have hkeeps : KeepsMirror m := by
    obtain rfl | rfl | hm := allMacros_cases hm
    · rw [initSequence_eq]
      exact (((keepsMirror_wait _).append (keepsMirror_issue (i := .raw _) nofun)).append
        (keepsMirror_of_ordinary (fun _ h => h) (initTransfers_ordinary c a))).append
        (keepsMirror_setBacklight c.const true a)
    · exact keepsMirror_setBacklight c.const on a
    · exact keepsMirror_of_ordinary (fun _ h => h) hm
  exact (hkeeps fuel a s e ⟨(ready_iff _).2 hready, hrst, hmirror.symm⟩ h).bl.symm

end Sys2Proof.Machine
end

section
/-! Polls that are never answered favourably (spec/60_exceptions.md R205): each of the three loops
holds the block. -/

namespace Sys2Proof.Machine

open Sys2Proof.Safety

/-- A run of `m` and then `n` steps. -/
theorem runs_add {m n : Nat} {s t : State} (h : runs m s = .next t) :
    runs (m + n) s = runs n t := by
  induction m generalizing s with
  | zero =>
    cases h
    rw [Nat.zero_add]
  | succ m ih =>
    rw [Nat.add_right_comm]
    cases hs : step s with
    | next u =>
      exact (run_next hs _).trans (ih ((run_next hs m).symm.trans h))
    | fault r => simp [runs, Host.Core.run, Sys2Proof.core, hs] at h
    | refused r => simp [runs, Host.Core.run, Sys2Proof.core, hs] at h

theorem runs_one {s t : State} (h : step s = .next t) : runs 1 s = .next t := run_next h 0

/-- `n` unfavourable answers are listed for a loop whose every such step records `e`. -/
def Stalls (e : Event) (holds : Nat → State → Prop) : Prop :=
  ∀ n s, holds (n + 1) s → ∃ t, step s = .next t ∧ holds n t ∧ t.inp.host = s.inp.host ∧
    t.trace = e :: s.trace

/-- A loop that stalls makes one unfavourable poll a step, for as long as they are listed. -/
theorem runs_of_stalls {e : Event} {holds : Nat → State → Prop} (hstall : Stalls e holds) (n : Nat)
    (s : State) (h : holds n s) :
    ∃ t, runs n s = .next t ∧ holds 0 t ∧ t.inp.host = s.inp.host ∧
      t.trace = List.replicate n e ++ s.trace := by
  induction n generalizing s with
  | zero => exact ⟨s, rfl, h, rfl, rfl⟩
  | succ n ih =>
    obtain ⟨u, hu, hhold, hhost, htrace⟩ := hstall n s h
    obtain ⟨t, ht, hhold, hhost', htrace'⟩ := ih u hhold
    refine ⟨t, (run_next hu n).trans ht, hhold, hhost'.trans hhost, ?_⟩
    rw [htrace', htrace, List.replicate_succ', List.append_assoc]
    rfl

/-- In phase `p`, with no reset to come and `answers` listed. -/
structure Waiting (p : Phase) (answers : Inputs → List Bool) (a : Bool) (n : Nat)
    (s : State) : Prop where
  wf : s.par.wf = true
  rst : s.inp.rst = []
  ph : s.ph = p
  listed : answers s.inp = List.replicate n a

theorem rdy_stalls : Stalls (.pollReady false) (Waiting .rdy Inputs.ready false) := by
  intro n s ⟨hw, hrst, hp, hl⟩
  have ha := (pollsGetTheListedAnswers s).1 _ _ hl
  have hstep := readyIsPolledUntilTrue s ⟨hw, rstAsserted_of_nil hrst⟩ hp
  rw [ha] at hstep
  exact ⟨_, hstep, ⟨hw, by simp [hrst], rfl, by simp [hl, List.replicate_succ]⟩, rfl, rfl⟩

theorem drainQ_stalls : Stalls (.pollQEmpty false) (Waiting .drainQ Inputs.qEmpty false) := by
  intro n s ⟨hw, hrst, hp, hl⟩
  have ha := (pollsGetTheListedAnswers s).2.1 _ _ hl
  have hstep := (drainPollsQueueThenBus s ⟨hw, rstAsserted_of_nil hrst⟩).1 hp
  rw [ha] at hstep
  exact ⟨_, hstep, ⟨hw, by simp [hrst], rfl, by simp [hl, List.replicate_succ]⟩, rfl, rfl⟩

theorem drainB_stalls : Stalls (.pollBusy true) (Waiting .drainB Inputs.busy true) := by
  intro n s ⟨hw, hrst, hp, hl⟩
  have ha := (pollsGetTheListedAnswers s).2.2.1 _ _ hl
  have hstep := (drainPollsQueueThenBus s ⟨hw, rstAsserted_of_nil hrst⟩).2 hp
  rw [ha] at hstep
  exact ⟨_, hstep, ⟨hw, by simp [hrst], rfl, by simp [hl, List.replicate_succ]⟩, rfl, rfl⟩

/-- Settles O44: each of the three loops stalls on its unfavourable answer. -/
theorem stalledBusHangs : Obligations.StalledBusHangs := by
  unfold Obligations.StalledBusHangs
  refine fun n s hw hrst => ⟨fun hp hl => ?_, fun hp hl => ?_, fun hp hl => ?_⟩
  · obtain ⟨t, ht, hwait, hend⟩ := runs_of_stalls rdy_stalls n s ⟨hw, hrst, hp, hl⟩
    exact ⟨t, ht, hwait.ph, hend⟩
  · obtain ⟨t, ht, hwait, hend⟩ := runs_of_stalls drainQ_stalls n s ⟨hw, hrst, hp, hl⟩
    exact ⟨t, ht, hwait.ph, hend⟩
  · obtain ⟨t, ht, hwait, hend⟩ := runs_of_stalls drainB_stalls n s ⟨hw, hrst, hp, hl⟩
    exact ⟨t, ht, hwait.ph, hend⟩

end Sys2Proof.Machine
end

section
/-! Whole commands (spec/41_transfer_engine.md R140, R141): from the accept over the snapshots, one
by one, to the response. -/

namespace Sys2Proof.Machine

open Sys2Proof.Safety

theorem step_of_noReset {s : State} (hw : s.par.wf = true) (hrst : s.inp.rst = []) :
    step s = transition s := by
  have hsample : s.sampleRst = s := by
    rw [State.sampleRst, hrst, List.tail_nil, ← hrst]
  rw [step_eq_transition hw (rstAsserted_of_nil hrst), hsample]

/-! ## A command under way -/

/-- The inputs list the given actions and answers, and no reset. -/
structure Listed (inp : Inputs) (host : List HostAct) (rd qe bu : List Bool)
    (ab : List AbortCode) : Prop where
  rst : inp.rst = []
  host : inp.host = host
  ready : inp.ready = rd
  qEmpty : inp.qEmpty = qe
  busy : inp.busy = bu
  abort : inp.abort = ab

/-- `s` with its command under way: in phase `p`, at snapshot `i`, `n` snapshots written, with the
port space and the inputs as given and the events `es` made since, newest first. -/
def State.during (s : State) (p : Phase) (i n : Nat) (mem : Memory) (inp : Inputs)
    (es : List Event) : State :=
  { s with
    ph := p, idx := BitVec.ofNat 3 i, count := BitVec.ofNat 3 n, mem := mem, inp := inp
    trace := es ++ s.trace }

theorem State.during_more (s : State) (p : Phase) (i n : Nat) (mem : Memory) (inp : Inputs)
    (es : List Event) : (s.during p i n mem inp es).more = s.more := rfl

/-- A state whose buffer holds the snapshots `bs`, with admitted parameters. -/
structure Sends (bs : List Byte) (s : State) : Prop where
  wf : s.par.wf = true
  len : s.len = BitVec.ofNat 3 bs.length
  frame : ∀ (k : Nat) (v : Byte), bs[k]? = some v → s.frame.get? k = some v
  size : bs.length ≤ 6

theorem ofNat_succ (k : Nat) : BitVec.ofNat 3 k + 1 = BitVec.ofNat 3 (k + 1) := by
  simp [BitVec.ofNat_add]

theorem toNat_ofNat_of_le_six {k : Nat} (hk : k ≤ 6) : (BitVec.ofNat 3 k).toNat = k := by
  rw [BitVec.toNat_ofNat, Nat.mod_eq_of_lt (by omega)]

/-- The events of the snapshot at `k` up to its wait, newest first. -/
def sentEvents (s : State) (bs : List Byte) (k : Nat) (v : Byte) : List Event :=
  [.wait (settleUs s.par k), .busWrite v (k + 1 == bs.length && !s.more), .pollReady true]

/-- The events of the first `k` snapshots of a command that meets no unfavourable answer, newest
first. -/
def cleanEvents (s : State) (bs : List Byte) (k : Nat) : List Event :=
  (bytesEvents s.par s.more bs.length 0 (bs.take k)).reverse

theorem bytesEvents_append (p : Params) (more : Bool) (n i : Nat) (xs ys : List Byte) :
    bytesEvents p more n i (xs ++ ys) =
      bytesEvents p more n i xs ++ bytesEvents p more n (i + xs.length) ys := by
  induction xs generalizing i with
  | nil => rfl
  | cons x xs ih => simp [bytesEvents, ih, Nat.add_assoc, Nat.add_comm 1]

theorem cleanEvents_length (s : State) (bs : List Byte) :
    cleanEvents s bs bs.length = (bytesEvents s.par s.more bs.length 0 bs).reverse := by
  rw [cleanEvents, List.take_length]

theorem cleanEvents_succ {s : State} {bs : List Byte} {k : Nat} {v : Byte} (hv : bs[k]? = some v) :
    cleanEvents s bs (k + 1) =
      .pollAbort Config.abortNone :: (sentEvents s bs k v ++ cleanEvents s bs k) := by
  have hk : k < bs.length := (List.getElem?_eq_some_iff.1 hv).1
  rw [cleanEvents, List.take_add_one, hv, bytesEvents_append]
  simp [bytesEvents, byteEvents, sentEvents, cleanEvents, hk.le]

section
variable {s : State} {bs : List Byte} {k : Nat} {v : Byte} {mem : Memory} {inp : Inputs}
  {es : List Event} {ho : List HostAct} {rd qe bu : List Bool} {ab : List AbortCode}
  (hs : Sends bs s)

include hs in
theorem step_during (h : inp.rst = []) (p : Phase) (i n : Nat) :
    step (s.during p i n mem inp es) = transition (s.during p i n mem inp es) :=
  step_of_noReset hs.wf h

include hs in
theorem idx_toNat_during (hk : k ≤ bs.length) (p : Phase) (n : Nat) :
    (s.during p k n mem inp es).idx.toNat = k :=
  toNat_ofNat_of_le_six (hk.trans hs.size)

include hs in
theorem len_toNat_during (p : Phase) (i n : Nat) :
    (s.during p i n mem inp es).len.toNat = bs.length := by
  change s.len.toNat = _
  rw [hs.len, toNat_ofNat_of_le_six hs.size]

include hs in
theorem stopFlag_during (hk : k < bs.length) (p : Phase) (n : Nat) :
    (s.during p k n mem inp es).stopFlag = (k + 1 == bs.length && !s.more) := by
  rw [State.stopFlag, State.lastByte, idx_toNat_during hs hk.le, len_toNat_during hs,
    State.during_more]

/-! ## The steps of one snapshot -/

include hs in
theorem step_rdy_during (h : Listed inp ho (true :: rd) qe bu ab) (i n : Nat) :
    ∃ inp', Listed inp' ho rd qe bu ab ∧
      step (s.during .rdy i n mem inp es) =
        .next (s.during .wr i n mem inp' (.pollReady true :: es)) := by
  obtain ⟨host, rst, ready, qEmpty, busy, abort, polls⟩ := inp
  obtain ⟨rfl, rfl, rfl, rfl, rfl, rfl⟩ := h
  exact ⟨⟨_, _, rd, _, _, _, polls + 1⟩, ⟨rfl, rfl, rfl, rfl, rfl, rfl⟩, step_during hs rfl ..⟩

include hs in
theorem step_wr_during (h : inp.rst = []) (hv : bs[k]? = some v) (n : Nat) :
    step (s.during .wr k n mem inp es) =
      .next (s.during .settle k (n + 1) (mem.write Config.portKey v) inp
        (.busWrite v (k + 1 == bs.length && !s.more) :: es)) := by
  have hk : k < bs.length := (List.getElem?_eq_some_iff.1 hv).1
  have hget : (s.during .wr k n mem inp es).frame.get? (s.during .wr k n mem inp es).idx.toNat =
      some v := by
    rw [idx_toNat_during hs hk.le]
    exact hs.frame k v hv
  refine (step_during hs h ..).trans ((phaseWr_of_get? hget).trans ?_)
  rw [stopFlag_during hs hk]
  simp only [State.during, State.busWrite, ofNat_succ]
  rfl

include hs in
theorem step_settle_during (h : inp.rst = []) (hk : k ≤ bs.length) (n : Nat) :
    step (s.during .settle k n mem inp es) =
      .next (s.during .chk k n mem inp (.wait (settleUs s.par k) :: es)) := by
  refine (step_during hs h ..).trans ?_
  change phaseSettle _ = _
  rw [phaseSettle, idx_toNat_during hs hk]
  rfl

include hs in
/-- With a true answer to the poll, three steps bring a snapshot to its abort sample. -/
theorem runs_toSample (h : Listed inp ho (true :: rd) qe bu ab) (hv : bs[k]? = some v) :
    ∃ mem' inp', Listed inp' ho rd qe bu ab ∧
      runs 3 (s.during .rdy k k mem inp es) =
        .next (s.during .chk k (k + 1) mem' inp' (sentEvents s bs k v ++ es)) := by
  have hk : k < bs.length := (List.getElem?_eq_some_iff.1 hv).1
  obtain ⟨inp', h', hpoll⟩ := step_rdy_during hs h k k
  exact ⟨_, inp', h', (run_next hpoll 2).trans ((run_next (step_wr_during hs h'.rst hv k) 1).trans
    (runs_one (step_settle_during hs h'.rst hk.le (k + 1))))⟩

/-- The abort sample takes the first answer listed. -/
theorem pollAbort_during {c : AbortCode} (h : Listed inp ho rd qe bu (c :: ab)) :
    ∃ inp', Listed inp' ho rd qe bu ab ∧ ∀ (p : Phase) (i n : Nat),
      (s.during p i n mem inp es).abortAnswer = c % 2 ^ s.par.abortW ∧
        (s.during p i n mem inp es).pollAbort =
          s.during p i n mem inp' (.pollAbort (c % 2 ^ s.par.abortW) :: es) := by
  obtain ⟨host, rst, ready, qEmpty, busy, abort, polls⟩ := inp
  obtain ⟨rfl, rfl, rfl, rfl, rfl, rfl⟩ := h
  exact ⟨⟨_, _, _, _, _, ab, polls + 1⟩, ⟨rfl, rfl, rfl, rfl, rfl, rfl⟩, fun _ _ _ => ⟨rfl, rfl⟩⟩

theorem abortNone_mod (w : Nat) : Config.abortNone % 2 ^ w = Config.abortNone := Nat.zero_mod _

include hs in
/-- A clean sample in CHK. -/
theorem step_chk_during (h : Listed inp ho rd qe bu (Config.abortNone :: ab)) (i n : Nat) :
    ∃ inp', Listed inp' ho rd qe bu ab ∧
      step (s.during .chk i n mem inp es) =
        chkClean (s.during .chk i n mem inp' (.pollAbort Config.abortNone :: es)) := by
  obtain ⟨inp', h', hpoll⟩ := pollAbort_during (s := s) (mem := mem) (es := es) h
  rw [abortNone_mod] at hpoll
  obtain ⟨ha, hp⟩ := hpoll .chk i n
  refine ⟨inp', h', (step_during hs h.rst ..).trans ?_⟩
  rw [← hp]
  exact phaseChk_of_clean ha

include hs in
/-- After a clean sample before the last snapshot the next one is polled for. -/
theorem step_chk_during_of_lt (h : Listed inp ho rd qe bu (Config.abortNone :: ab))
    (hk : k + 1 < bs.length) (n : Nat) :
    ∃ inp', Listed inp' ho rd qe bu ab ∧
      step (s.during .chk k n mem inp es) =
        .next (s.during .rdy (k + 1) n mem inp' (.pollAbort Config.abortNone :: es)) := by
  obtain ⟨inp', h', hstep⟩ := step_chk_during (mem := mem) (es := es) hs h k n
  refine ⟨inp', h', hstep.trans ((chkClean_of_lt ?_).trans ?_)⟩
  · rwa [idx_toNat_during hs (by omega), len_toNat_during hs]
  · rw [State.during, State.during, ofNat_succ]

include hs in
/-- `k` snapshots that meet no unfavourable answer and are not the last of the command. -/
theorem runs_cleanSnapshots (hk : k < bs.length)
    (h : Listed inp ho (List.replicate k true ++ rd) qe bu
      (List.replicate k Config.abortNone ++ ab)) :
    ∃ mem' inp', Listed inp' ho rd qe bu ab ∧
      runs (4 * k) (s.during .rdy 0 0 mem inp es) =
        .next (s.during .rdy k k mem' inp' (cleanEvents s bs k ++ es)) := by
  induction k generalizing rd ab with
  | zero => exact ⟨mem, inp, h, rfl⟩
  | succ k ih =>
    rw [List.replicate_succ', List.append_assoc, List.replicate_succ', List.append_assoc] at h
    have hv : bs[k]? = some bs[k] := List.getElem?_eq_getElem (by omega)
    obtain ⟨mem₁, inp₁, h₁, hrun⟩ := ih (by omega) h
    obtain ⟨mem₂, inp₂, h₂, hsample⟩ := runs_toSample hs h₁ hv
    obtain ⟨inp₃, h₃, hclean⟩ := step_chk_during_of_lt hs h₂ hk (k + 1)
    rw [cleanEvents_succ hv, List.cons_append, List.append_assoc]
    exact ⟨mem₂, inp₃, h₃, (runs_add hrun).trans ((runs_add hsample).trans (runs_one hclean))⟩

include hs in
/-- The run up to the abort sample of snapshot `k`. -/
theorem runs_cleanToSample (hv : bs[k]? = some v)
    (h : Listed inp ho (List.replicate (k + 1) true ++ rd) qe bu
      (List.replicate k Config.abortNone ++ ab)) :
    ∃ mem' inp', Listed inp' ho rd qe bu ab ∧
      runs (4 * k + 3) (s.during .rdy 0 0 mem inp es) =
        .next (s.during .chk k (k + 1) mem' inp'
          (sentEvents s bs k v ++ (cleanEvents s bs k ++ es))) := by
  rw [List.replicate_succ', List.append_assoc] at h
  obtain ⟨mem₁, inp₁, h₁, hrun⟩ :=
    runs_cleanSnapshots hs (List.getElem?_eq_some_iff.1 hv).1 h
  obtain ⟨mem₂, inp₂, h₂, hsample⟩ := runs_toSample hs h₁ hv
  exact ⟨mem₂, inp₂, h₂, (runs_add hrun).trans hsample⟩

/-! ## The ends of a command -/

/-- The state in which a command that wrote `n` snapshots has responded `st`, in phase `p` and at
snapshot `i`. -/
def State.responded (s : State) (p : Phase) (i n : Nat) (st : Status) (code : AbortCode)
    (mem : Memory) (inp : Inputs) (es : List Event) : State :=
  { s with st := st, reason := code }.during p i n mem inp
    (.respond st (BitVec.ofNat 3 n) code :: es)

include hs in
/-- A bad sample in CHK or CHKF. -/
theorem step_abort_during {a : AbortCode} (h : Listed inp ho rd qe bu (a :: ab))
    (hbad : a % 2 ^ s.par.abortW ≠ Config.abortNone) {p : Phase} (hp : p = .chk ∨ p = .chkF)
    (i n : Nat) :
    ∃ inp', Listed inp' ho rd qe bu ab ∧
      step (s.during p i n mem inp es) =
        .next (s.responded .idle i n .busAbort (a % 2 ^ s.par.abortW) mem inp'
          (.clearAbort :: .pollAbort (a % 2 ^ s.par.abortW) :: es)) := by
  obtain ⟨inp', h', hpoll⟩ := pollAbort_during (s := s) (mem := mem) (es := es) h
  obtain ⟨ha, hpoll⟩ := hpoll p i n
  rw [← ha] at hbad
  have hexit : (s.during p i n mem inp es).pollAbort.raiseBusAbort
      (s.during p i n mem inp es).abortAnswer = s.responded .idle i n .busAbort
        (a % 2 ^ s.par.abortW) mem inp'
        (.clearAbort :: .pollAbort (a % 2 ^ s.par.abortW) :: es) := by
    rw [ha, hpoll]
    rfl
  refine ⟨inp', h', (step_during hs h.rst ..).trans
    (Eq.trans ?_ (congrArg Host.Outcome.next hexit))⟩
  rcases hp with rfl | rfl
  · exact phaseChk_of_abort hbad
  · exact phaseChkF_of_abort hbad

include hs in
/-- A clean sample after the last snapshot of a command that leaves its frame open. -/
theorem step_chk_during_open (h : Listed inp ho rd qe bu (Config.abortNone :: ab))
    (hk : bs.length = k + 1) (hm : s.more = true) (n : Nat) :
    ∃ inp', Listed inp' ho rd qe bu ab ∧
      step (s.during .chk k n mem inp es) =
        .next (s.responded .held bs.length bs.length .ok Config.abortNone mem inp'
          (.pollAbort Config.abortNone :: es)) := by
  obtain ⟨inp', h', hstep⟩ := step_chk_during (mem := mem) (es := es) hs h k n
  refine ⟨inp', h', hstep.trans ((chkClean_of_last_open ?_
    ((State.during_more ..).trans hm)).trans ?_)⟩
  · rw [idx_toNat_during hs (by omega), len_toNat_during hs, hk]
  · simp only [State.responded, State.during, State.respond, ofNat_succ, hs.len, hk]
    rfl

include hs in
/-- A clean sample after the last snapshot of a command that closes its frame. -/
theorem step_chk_during_closed (h : Listed inp ho rd qe bu (Config.abortNone :: ab))
    (hk : bs.length = k + 1) (hm : s.more = false) (n : Nat) :
    ∃ inp', Listed inp' ho rd qe bu ab ∧
      step (s.during .chk k n mem inp es) =
        .next (s.during .drainQ bs.length n mem inp' (.pollAbort Config.abortNone :: es)) := by
  obtain ⟨inp', h', hstep⟩ := step_chk_during (mem := mem) (es := es) hs h k n
  refine ⟨inp', h', hstep.trans ((chkClean_of_last_closed ?_
    ((State.during_more ..).trans hm)).trans ?_)⟩
  · rw [idx_toNat_during hs (by omega), len_toNat_during hs, hk]
  · simp only [State.during, ofNat_succ, hk]

include hs in
theorem step_drainQ_during (h : Listed inp ho rd (true :: qe) bu ab) (i n : Nat) :
    ∃ inp', Listed inp' ho rd qe bu ab ∧
      step (s.during .drainQ i n mem inp es) =
        .next (s.during .drainB i n mem inp' (.pollQEmpty true :: es)) := by
  obtain ⟨host, rst, ready, qEmpty, busy, abort, polls⟩ := inp
  obtain ⟨rfl, rfl, rfl, rfl, rfl, rfl⟩ := h
  exact ⟨⟨_, _, _, qe, _, _, polls + 1⟩, ⟨rfl, rfl, rfl, rfl, rfl, rfl⟩, step_during hs rfl ..⟩

include hs in
theorem step_drainB_during (h : Listed inp ho rd qe (false :: bu) ab) (i n : Nat) :
    ∃ inp', Listed inp' ho rd qe bu ab ∧
      step (s.during .drainB i n mem inp es) =
        .next (s.during .chkF i n mem inp' (.pollBusy false :: es)) := by
  obtain ⟨host, rst, ready, qEmpty, busy, abort, polls⟩ := inp
  obtain ⟨rfl, rfl, rfl, rfl, rfl, rfl⟩ := h
  exact ⟨⟨_, _, _, _, bu, _, polls + 1⟩, ⟨rfl, rfl, rfl, rfl, rfl, rfl⟩, step_during hs rfl ..⟩

include hs in
/-- From the last sample of a command that closes its frame through the drain. -/
theorem runs_lastSampleToDrained
    (h : Listed inp ho rd (true :: qe) (false :: bu) (Config.abortNone :: ab))
    (hk : bs.length = k + 1) (hm : s.more = false) (n : Nat) :
    ∃ inp', Listed inp' ho rd qe bu ab ∧
      runs 3 (s.during .chk k n mem inp es) =
        .next (s.during .chkF bs.length n mem inp'
          (.pollBusy false :: .pollQEmpty true :: .pollAbort Config.abortNone :: es)) := by
  obtain ⟨inp₁, h₁, hclean⟩ := step_chk_during_closed (mem := mem) (es := es) hs h hk hm n
  obtain ⟨inp₂, h₂, hqueue⟩ := step_drainQ_during (mem := mem)
    (es := .pollAbort Config.abortNone :: es) hs h₁ bs.length n
  obtain ⟨inp₃, h₃, hbus⟩ := step_drainB_during (mem := mem)
    (es := .pollQEmpty true :: .pollAbort Config.abortNone :: es) hs h₂ bs.length n
  exact ⟨inp₃, h₃, (run_next hclean 2).trans ((run_next hqueue 1).trans (runs_one hbus))⟩

include hs in
/-- A clean sample after the drain. -/
theorem step_chkF_during (h : Listed inp ho rd qe bu (Config.abortNone :: ab)) (n : Nat) :
    ∃ inp', Listed inp' ho rd qe bu ab ∧
      step (s.during .chkF bs.length n mem inp es) =
        .next (s.responded .idle bs.length bs.length .ok Config.abortNone mem inp'
          (.pollAbort Config.abortNone :: es)) := by
  obtain ⟨inp', h', hpoll⟩ := pollAbort_during (s := s) (mem := mem) (es := es) h
  rw [abortNone_mod] at hpoll
  obtain ⟨ha, hpoll⟩ := hpoll .chkF bs.length n
  refine ⟨inp', h', (step_during hs h.rst ..).trans ((phaseChkF_of_clean ha).trans ?_)⟩
  rw [hpoll]
  simp only [State.responded, State.during, State.respond, hs.len]
  rfl

end

/-! ## The accept, and the prologue of a command that opens its frame -/

/-- A command that transfers: RAW does so in IDLE alone. -/
structure Transfers (i : Instr) (s : State) : Prop where
  ready : PortReady s
  notSetbl : ∀ v, i ≠ .setbl v
  raw : ∀ b, i = .raw b → s.ph = .idle

theorem snapshots_ne_nil (m : Masks) (bl : Bool) {i : Instr} (h : ∀ v, i ≠ .setbl v) :
    snapshots m bl i ≠ [] := by
  cases i with
  | setbl v => exact absurd rfl (h v)
  | _ => exact List.cons_ne_nil _ _

theorem Frame.get?_load (f : Frame) {bs : List Byte} {k : Nat} {v : Byte} (hk : k < 6)
    (hv : bs[k]? = some v) : (f.load bs).get? k = some v := by
  interval_cases k <;> simp [Frame.load, Frame.get?, List.getD_eq_getElem?_getD, hv]

theorem sends_startTransfer {s : State} {i : Instr} (hw : s.par.wf = true) (h : Transfers i s) :
    Sends (snapshots s.par.masks s.bl i)
      (s.startTransfer (snapshots s.par.masks s.bl i) (moreOf i)) := by
  have hsize : (snapshots s.par.masks s.bl i).length ≤ 6 := by
    have := snapshots_length_cases s.par.masks s.bl (snapshots_ne_nil s.par.masks s.bl h.notSetbl)
    omega
  refine ⟨hw, rfl, fun k v hv => Frame.get?_load _ ?_ hv, hsize⟩
  have := (List.getElem?_eq_some_iff.1 hv).1
  omega

/-- The events of the prologue, where a command accepted in `s` opens its frame. -/
def openEvents (s : State) : List Event :=
  if s.ph = .idle then prologueEvents s.par s.targetAddr else []

/-- The accept of a command, and the prologue where it opens a frame. -/
theorem runs_begin {s : State} {i : Instr} {rest : List HostAct} {rd qe bu : List Bool}
    {ab : List AbortCode} (hw : s.par.wf = true) (h : Transfers i s)
    (hinp : Listed s.inp (.present (encode i) :: rest) rd qe bu ab) :
    ∃ inp', Listed inp' rest rd qe bu ab ∧
      runs (1 + if s.ph = .idle then 1 else 0) s =
        .next ((s.startTransfer (snapshots s.par.masks s.bl i) (moreOf i)).during .rdy 0 0 s.mem
          inp' (openEvents s).reverse) := by
  have hs := sends_startTransfer hw h
  generalize hu : s.startTransfer (snapshots s.par.masks s.bl i) (moreOf i) = u at hs ⊢
  have ⟨inp', h', haccept⟩ : ∃ inp', Listed inp' rest rd qe bu ab ∧
      step s = .next (u.during (if s.ph = .idle then .addr else .rdy) 0 0 s.mem inp' []) := by
    refine ⟨{ s.inp with host := rest, rst := s.inp.rst.tail },
      ⟨by simp [hinp.rst], rfl, hinp.ready, hinp.qEmpty, hinp.busy, hinp.abort⟩, ?_⟩
    rw [stepRunsTheDecodedCommand s _ rest i ⟨hw, rstAsserted_of_nil hinp.rst⟩ h.ready hinp.host
      (decode_encode i), ← hu]
    exact exec_eq_startTransfer ((ready_iff _).2 h.ready) (snapshots_ne_nil _ _ h.notSetbl) h.raw
  refine ⟨inp', h', ?_⟩
  split at haccept
  next hp =>
    have hprologue : step (u.during .addr 0 0 s.mem inp' []) =
        .next (u.during .rdy 0 0 s.mem inp' (prologueEvents u.par u.targetAddr).reverse) :=
      step_during hs h'.rst ..
    rw [if_pos hp, openEvents, if_pos hp]
    subst hu
    exact (run_next haccept 1).trans (runs_one hprologue)
  next hp =>
    rw [if_neg hp, openEvents, if_neg hp]
    exact runs_one haccept

/-- From the accept to the abort sample of snapshot `k`, all before it clean. -/
theorem runs_acceptToSample {s : State} {i : Instr} {rest : List HostAct} {k : Nat} {v : Byte}
    {rd qe bu : List Bool} {ab : List AbortCode} (hw : s.par.wf = true) (h : Transfers i s)
    (hv : (snapshots s.par.masks s.bl i)[k]? = some v)
    (hinp : Listed s.inp (.present (encode i) :: rest) (List.replicate (k + 1) true ++ rd) qe bu
      (List.replicate k Config.abortNone ++ ab)) :
    let bs := snapshots s.par.masks s.bl i
    let u := s.startTransfer bs (moreOf i)
    ∃ mem inp, Listed inp rest rd qe bu ab ∧
      runs (1 + (if s.ph = .idle then 1 else 0) + (4 * k + 3)) s =
        .next (u.during .chk k (k + 1) mem inp
          (sentEvents u bs k v ++ (cleanEvents u bs k ++ (openEvents s).reverse))) := by
  obtain ⟨inp₁, h₁, hbegin⟩ := runs_begin hw h hinp
  obtain ⟨mem, inp₂, h₂, hrun⟩ := runs_cleanToSample (sends_startTransfer hw h) hv h₁
  exact ⟨mem, inp₂, h₂, (runs_add hbegin).trans hrun⟩

/-! ## Whole commands -/

/-- The last of a command's snapshots. -/
theorem getElem?_last {bs : List Byte} (h : bs ≠ []) :
    ∃ k v, bs.length = k + 1 ∧ bs[k]? = some v := by
  obtain ⟨k, hk⟩ := Nat.exists_eq_succ_of_ne_zero (List.length_eq_zero_iff.not.2 h)
  exact ⟨k, bs[k], hk, List.getElem?_eq_getElem (by omega)⟩

/-- From the accept of a command that leaves its frame open to its response, all samples clean. -/
theorem runs_acceptToOpen {s : State} {i : Instr} {rest : List HostAct} {rd qe bu : List Bool}
    {ab : List AbortCode} (hw : s.par.wf = true) (h : Transfers i s) (hm : moreOf i = true) :
    let bs := snapshots s.par.masks s.bl i
    let u := s.startTransfer bs (moreOf i)
    Listed s.inp (.present (encode i) :: rest) (List.replicate bs.length true ++ rd) qe bu
      (List.replicate bs.length Config.abortNone ++ ab) →
    ∃ mem inp, Listed inp rest rd qe bu ab ∧
      runs (1 + (if s.ph = .idle then 1 else 0) + 4 * bs.length) s =
        .next (u.responded .held bs.length bs.length .ok Config.abortNone mem inp
          (cleanEvents u bs bs.length ++ (openEvents s).reverse)) := by
  intro bs u hinp
  obtain ⟨k, v, hk, hv⟩ := getElem?_last (snapshots_ne_nil s.par.masks s.bl h.notSetbl)
  have hk : bs.length = k + 1 := hk
  rw [hk, List.replicate_succ' (n := k) (a := Config.abortNone), List.append_assoc] at hinp
  obtain ⟨mem, inp₁, h₁, hrun⟩ := runs_acceptToSample hw h hv hinp
  obtain ⟨inp₂, h₂, hend⟩ :=
    step_chk_during_open (sends_startTransfer hw h) h₁ hk hm (k + 1)
  refine ⟨mem, inp₂, h₂, ?_⟩
  rw [hk, cleanEvents_succ hv]
  rw [hk] at hend
  exact (runs_add hrun).trans (runs_one hend)

/-- From the accept of a command that closes its frame through the drain, all samples clean. -/
theorem runs_acceptToDrained {s : State} {i : Instr} {rest : List HostAct}
    {rd qe bu : List Bool} {ab : List AbortCode} (hw : s.par.wf = true) (h : Transfers i s)
    (hm : moreOf i = false) :
    let bs := snapshots s.par.masks s.bl i
    let u := s.startTransfer bs (moreOf i)
    Listed s.inp (.present (encode i) :: rest) (List.replicate bs.length true ++ rd) (true :: qe)
      (false :: bu) (List.replicate bs.length Config.abortNone ++ ab) →
    ∃ mem inp, Listed inp rest rd qe bu ab ∧
      runs (1 + (if s.ph = .idle then 1 else 0) + 4 * bs.length + 2) s =
        .next (u.during .chkF bs.length bs.length mem inp (.pollBusy false :: .pollQEmpty true ::
          (cleanEvents u bs bs.length ++ (openEvents s).reverse))) := by
  intro bs u hinp
  obtain ⟨k, v, hk, hv⟩ := getElem?_last (snapshots_ne_nil s.par.masks s.bl h.notSetbl)
  have hk : bs.length = k + 1 := hk
  rw [hk, List.replicate_succ' (n := k) (a := Config.abortNone), List.append_assoc] at hinp
  obtain ⟨mem, inp₁, h₁, hrun⟩ := runs_acceptToSample hw h hv hinp
  obtain ⟨inp₂, h₂, hdrain⟩ :=
    runs_lastSampleToDrained (sends_startTransfer hw h) h₁ hk hm (k + 1)
  refine ⟨mem, inp₂, h₂, ?_⟩
  rw [hk, cleanEvents_succ hv]
  rw [hk] at hdrain
  exact (runs_add hrun).trans hdrain

theorem cleanTrace_reverse (s : State) (i : Instr) (bs : List Byte) :
    (cleanTrace s.par s.targetAddr (s.ph = .idle) (moreOf i) bs).reverse =
      (endEvents (moreOf i) bs.length).reverse ++
        (cleanEvents (s.startTransfer bs (moreOf i)) bs bs.length ++ (openEvents s).reverse) := by
  simp [cleanTrace, cleanEvents_length, openEvents]

theorem abortedTrace_reverse (s : State) (i : Instr) (bs : List Byte) (k : Nat) (v : Byte)
    (code : AbortCode) :
    let u := s.startTransfer bs (moreOf i)
    (abortedTrace s.par s.targetAddr (s.ph = .idle) (moreOf i) bs k v code).reverse =
      .respond .busAbort (BitVec.ofNat 3 (k + 1)) code :: .clearAbort :: .pollAbort code ::
        (sentEvents u bs k v ++ (cleanEvents u bs k ++ (openEvents s).reverse)) := by
  simp [abortedTrace, cleanEvents, openEvents, sentEvents, byteEvents]

theorem lateAbortTrace_reverse (s : State) (i : Instr) (hm : moreOf i = false) (bs : List Byte)
    (code : AbortCode) :
    let u := s.startTransfer bs (moreOf i)
    (lateAbortTrace s.par s.targetAddr (s.ph = .idle) bs code).reverse =
      .respond .busAbort (BitVec.ofNat 3 bs.length) code :: .clearAbort :: .pollAbort code ::
        .pollBusy false :: .pollQEmpty true ::
          (cleanEvents u bs bs.length ++ (openEvents s).reverse) := by
  simp [lateAbortTrace, cleanEvents_length, openEvents, hm]

/-- Settles O45: the accept, the snapshots, and the end with the frame left open or drained. -/
theorem cleanCommandRunsToItsResponse : Obligations.CleanCommandRunsToItsResponse := by
  unfold Obligations.CleanCommandRunsToItsResponse
  intro s i rest rd qe bu ab hw hrst hready hset hraw bs n hhost hrd hab hdrain
  have htr : Transfers i s := ⟨hready, hset, hraw⟩
  rw [cleanTrace_reverse, endEvents]
  rcases Bool.eq_false_or_eq_true (moreOf i) with hm | hm
  · rw [if_pos hm] at hab
    obtain ⟨mem, inp, h', hrun⟩ := runs_acceptToOpen hw htr hm ⟨hrst, hhost, hrd, rfl, rfl, hab⟩
    rw [if_pos hm, if_pos hm, if_pos hm]
    exact ⟨_, hrun, rfl, rfl, rfl, rfl, rfl, rfl, rfl, rfl, rfl, h'.host, rfl⟩
  · obtain ⟨hqe, hbu⟩ := hdrain hm
    have hm' : ¬ moreOf i = true := Bool.eq_false_iff.1 hm
    rw [if_neg hm', List.replicate_succ', List.append_assoc] at hab
    obtain ⟨mem, inp₁, h₁, hrun⟩ := runs_acceptToDrained hw htr hm ⟨hrst, hhost, hrd, hqe, hbu, hab⟩
    obtain ⟨inp₂, h₂, hend⟩ := step_chkF_during (sends_startTransfer hw htr) h₁ n
    rw [if_neg hm', if_neg hm', if_neg hm']
    exact ⟨_, (runs_add hrun).trans (runs_one hend), rfl, rfl, rfl, rfl, rfl, rfl, rfl, rfl, rfl,
      h₂.host, rfl⟩

/-- Settles O46: the samples before the bad one are clean, and the bad one takes the exit. -/
theorem abortedCommandStopsAtItsSample : Obligations.AbortedCommandStopsAtItsSample := by
  unfold Obligations.AbortedCommandStopsAtItsSample
  intro s i rest rd qe bu ab a hw hrst hready hset hraw bs n code opened hhost hbad
  have htr : Transfers i s := ⟨hready, hset, hraw⟩
  have hs := sends_startTransfer hw htr
  refine ⟨fun k v hv hrd hab => ?_, fun hm hrd hqe hbu hab => ?_⟩
  · rw [abortedTrace_reverse]
    obtain ⟨mem, inp₁, h₁, hrun⟩ := runs_acceptToSample hw htr hv ⟨hrst, hhost, hrd, rfl, rfl, hab⟩
    obtain ⟨inp₂, h₂, hend⟩ := step_abort_during hs h₁ hbad (.inl rfl) k (k + 1)
    exact ⟨_, (runs_add hrun).trans (runs_one hend), rfl, rfl, rfl, rfl, rfl, h₂.host, rfl⟩
  · rw [lateAbortTrace_reverse s i hm]
    obtain ⟨mem, inp₁, h₁, hrun⟩ := runs_acceptToDrained hw htr hm ⟨hrst, hhost, hrd, hqe, hbu, hab⟩
    obtain ⟨inp₂, h₂, hend⟩ := step_abort_during hs h₁ hbad (.inr rfl) n n
    exact ⟨_, (runs_add hrun).trans (runs_one hend), rfl, rfl, rfl, rfl, rfl, h₂.host, rfl⟩

end Sys2Proof.Machine
end

section
/-! The sequential procedure and the transition table (spec/41_transfer_engine.md R138): part by
part, the procedure ends in a state exactly when the steps of the table lead there. -/

namespace Sys2Proof.Machine

/-! ## Functions with fuel -/

/-- More fuel does not change a result. -/
def FuelMono {α : Type} (f : Nat → Option α) : Prop :=
  ∀ ⦃m n : Nat⦄ ⦃a : α⦄, m ≤ n → f m = some a → f n = some a

/-- With some fuel `f` gives `a`. -/
def Yields {α : Type} (f : Nat → Option α) (a : α) : Prop := ∃ fuel, f fuel = some a

theorem fuelMono_const {α : Type} (o : Option α) : FuelMono fun _ => o :=
  fun _ _ _ _ h => h

theorem yields_const {α : Type} {o : Option α} {a : α} : Yields (fun _ => o) a ↔ o = some a :=
  ⟨fun ⟨_, h⟩ => h, fun h => ⟨0, h⟩⟩

theorem FuelMono.bind {α β : Type} {f : Nat → Option α} {g : Nat → α → Option β} (hf : FuelMono f)
    (hg : ∀ a, FuelMono (g · a)) : FuelMono fun n => (f n).bind (g n) := by
  intro m n b hmn h
  obtain ⟨a, ha, hb⟩ := Option.bind_eq_some_iff.1 h
  exact Option.bind_eq_some_iff.2 ⟨a, hf hmn ha, hg a hmn hb⟩

/-- Two parts in sequence may share their fuel. -/
theorem yields_bind {α β : Type} {f : Nat → Option α} {g : Nat → α → Option β} (hf : FuelMono f)
    (hg : ∀ a, FuelMono (g · a)) {b : β} :
    Yields (fun n => (f n).bind (g n)) b ↔ ∃ a, Yields f a ∧ Yields (g · a) b := by
  refine ⟨fun ⟨n, h⟩ => ?_, fun ⟨a, ⟨m, ha⟩, n, hb⟩ => ⟨max m n, ?_⟩⟩
  · obtain ⟨a, ha, hb⟩ := Option.bind_eq_some_iff.1 h
    exact ⟨a, ⟨n, ha⟩, n, hb⟩
  · exact Option.bind_eq_some_iff.2 ⟨a, hf (le_max_left ..) ha, hg a (le_max_right ..) hb⟩

/-! ## Steps of the table to a ready port -/

/-- The steps of the table first make the port ready in `t`. -/
def Reaches (s t : State) : Prop := ∃ n, toReady n s = some t

/-- Admitted parameters, and no reset listed. -/
structure Unreset (s : State) : Prop where
  wf : s.par.wf = true
  rst : s.inp.rst = []

/-- `s` in phase `p`. The procedure sets no phase before its end. -/
def State.inPhase (s : State) (p : Phase) : State := { s with ph := p }

theorem step_inPhase {s : State} (h : Unreset s) (p : Phase) :
    step (s.inPhase p) = transition (s.inPhase p) :=
  step_of_noReset h.wf h.rst

theorem toReady_of_ready {s : State} (h : s.ph.ready = true) (n : Nat) : toReady n s = some s := by
  cases n <;> exact if_pos h

theorem toReady_zero_of_busy {s : State} (h : s.ph.ready = false) : toReady 0 s = none :=
  if_neg (Bool.eq_false_iff.1 h)

theorem toReady_succ_of_next {s t : State} (h : s.ph.ready = false) (ht : step s = .next t)
    (n : Nat) : toReady (n + 1) s = toReady n t := by
  rw [toReady, if_neg (Bool.eq_false_iff.1 h), ht]

theorem toReady_of_fault {s : State} {f : Fault} (h : s.ph.ready = false) (hf : step s = .fault f)
    (n : Nat) : toReady n s = none := by
  cases n with
  | zero => exact toReady_zero_of_busy h
  | succ n => rw [toReady, if_neg (Bool.eq_false_iff.1 h), hf]

theorem reaches_of_ready {s t : State} (h : s.ph.ready = true) : Reaches s t ↔ s = t := by
  simp [Reaches, toReady_of_ready h]

theorem reaches_of_next {s t u : State} (h : s.ph.ready = false) (hs : step s = .next u) :
    Reaches s t ↔ Reaches u t := by
  refine ⟨fun ⟨n, hn⟩ => ?_, fun ⟨n, hn⟩ => ⟨n + 1, (toReady_succ_of_next h hs n).trans hn⟩⟩
  cases n with
  | zero => simp [toReady_zero_of_busy h] at hn
  | succ n => exact ⟨n, (toReady_succ_of_next h hs n).symm.trans hn⟩

theorem not_reaches_of_fault {s t : State} {f : Fault} (h : s.ph.ready = false)
    (hf : step s = .fault f) : ¬ Reaches s t := by
  simp [Reaches, toReady_of_fault h hf]

/-! ## The three poll loops -/

/-- `loop` polls until `done`, and the table does so in phase `p`, which it leaves for `q`. -/
structure PollLoop (loop : Nat → State → Option State) (done : State → Bool)
    (poll : State → State) (p q : Phase) : Prop where
  zero : ∀ s, loop 0 s = none
  succ : ∀ n s, loop (n + 1) s = if done s then some (poll s) else loop n (poll s)
  busy : p.ready = false
  unreset : ∀ {s}, Unreset s → Unreset (poll s)
  step : ∀ {s}, Unreset s →
    step (s.inPhase p) = .next ((poll s).inPhase (if done s then q else p))

section
variable {loop : Nat → State → Option State} {done : State → Bool} {poll : State → State}
  {p q : Phase} (hl : PollLoop loop done poll p q)

include hl

theorem PollLoop.succ_of_done {s : State} (hd : done s = true) (n : Nat) :
    loop (n + 1) s = some (poll s) := (hl.succ n s).trans (if_pos hd)

theorem PollLoop.succ_of_not_done {s : State} (hd : done s = false) (n : Nat) :
    loop (n + 1) s = loop n (poll s) := (hl.succ n s).trans (if_neg (Bool.eq_false_iff.1 hd))

theorem PollLoop.fuelMono (s : State) : FuelMono (loop · s) := by
  intro m n a hmn h
  change loop m s = some a at h
  change loop n s = some a
  induction m generalizing n s with
  | zero => simp [hl.zero] at h
  | succ m ih =>
    obtain ⟨n, rfl⟩ := Nat.exists_eq_succ_of_ne_zero (show n ≠ 0 by omega)
    cases hd : done s with
    | true => rwa [hl.succ_of_done hd] at h ⊢
    | false =>
      rw [hl.succ_of_not_done hd] at h ⊢
      exact ih (poll s) (by omega) h

/-- A loop keeps what each of its polls keeps. -/
theorem PollLoop.keeps {P : State → Prop} (hP : ∀ {s}, P s → P (poll s)) {s u : State} (h : P s)
    (hu : Yields (loop · s) u) : P u := by
  obtain ⟨n, (hn : loop n s = some u)⟩ := hu
  induction n generalizing s with
  | zero => simp [hl.zero] at hn
  | succ n ih =>
    cases hd : done s with
    | true =>
      cases (hl.succ_of_done hd n).symm.trans hn
      exact hP h
    | false => exact ih (hP h) ((hl.succ_of_not_done hd n).symm.trans hn)

theorem PollLoop.unreset_of_yields {s u : State} (h : Unreset s) (hu : Yields (loop · s) u) :
    Unreset u :=
  hl.keeps (P := Unreset) hl.unreset h hu

theorem PollLoop.reaches_of_yields {s t u : State} (h : Unreset s) (hu : Yields (loop · s) u)
    (ht : Reaches (u.inPhase q) t) : Reaches (s.inPhase p) t := by
  obtain ⟨n, (hn : loop n s = some u)⟩ := hu
  induction n generalizing s with
  | zero => simp [hl.zero] at hn
  | succ n ih =>
    rw [reaches_of_next hl.busy (hl.step h)]
    cases hd : done s with
    | true =>
      cases (hl.succ_of_done hd n).symm.trans hn
      exact ht
    | false => exact ih (hl.unreset h) ((hl.succ_of_not_done hd n).symm.trans hn)

theorem PollLoop.yields_of_reaches {s t : State} (h : Unreset s) (ht : Reaches (s.inPhase p) t) :
    ∃ u, Yields (loop · s) u ∧ Reaches (u.inPhase q) t := by
  obtain ⟨n, hn⟩ := ht
  induction n generalizing s with
  | zero => simp [toReady_zero_of_busy (s := s.inPhase p) hl.busy] at hn
  | succ n ih =>
    rw [toReady_succ_of_next hl.busy (hl.step h)] at hn
    cases hd : done s with
    | true =>
      rw [hd] at hn
      exact ⟨poll s, ⟨1, hl.succ_of_done hd 0⟩, n, hn⟩
    | false =>
      rw [hd] at hn
      obtain ⟨u, ⟨m, hm⟩, ht⟩ := ih (hl.unreset h) hn
      exact ⟨u, ⟨m + 1, (hl.succ_of_not_done hd m).trans hm⟩, ht⟩

theorem PollLoop.reaches_iff {s t : State} (h : Unreset s) :
    Reaches (s.inPhase p) t ↔ ∃ u, Yields (loop · s) u ∧ Reaches (u.inPhase q) t :=
  ⟨hl.yields_of_reaches h, fun ⟨_, hu, ht⟩ => hl.reaches_of_yields h hu ht⟩

end

theorem untilReady_pollLoop :
    PollLoop untilReady State.readyAnswer State.pollReady .rdy .wr where
  zero _ := rfl
  succ _ _ := rfl
  busy := rfl
  unreset h := ⟨h.wf, h.rst⟩
  step {s} h := by
    refine (step_inPhase h .rdy).trans ?_
    change phaseRdy (s.inPhase .rdy) = _
    rw [phaseRdy, show (s.inPhase .rdy).readyAnswer = s.readyAnswer from rfl]
    cases s.readyAnswer <;> rfl

theorem untilQEmpty_pollLoop :
    PollLoop untilQEmpty State.qEmptyAnswer State.pollQEmpty .drainQ .drainB where
  zero _ := rfl
  succ _ _ := rfl
  busy := rfl
  unreset h := ⟨h.wf, h.rst⟩
  step {s} h := by
    refine (step_inPhase h .drainQ).trans ?_
    change phaseDrainQ (s.inPhase .drainQ) = _
    rw [phaseDrainQ, show (s.inPhase .drainQ).qEmptyAnswer = s.qEmptyAnswer from rfl]
    cases s.qEmptyAnswer <;> rfl

theorem untilBusIdle_pollLoop :
    PollLoop untilBusIdle (fun s => !s.busyAnswer) State.pollBusy .drainB .chkF where
  zero _ := rfl
  succ n s := by
    rw [untilBusIdle]
    cases s.busyAnswer <;> rfl
  busy := rfl
  unreset h := ⟨h.wf, h.rst⟩
  step {s} h := by
    refine (step_inPhase h .drainB).trans ?_
    change phaseDrainB (s.inPhase .drainB) = _
    rw [phaseDrainB, show (s.inPhase .drainB).busyAnswer = s.busyAnswer from rfl]
    cases s.busyAnswer <;> rfl

/-! ## The body of the byte loop -/

/-- The write, its count and its wait. -/
def State.wrote (s : State) : Option State :=
  (s.frame.get? s.idx.toNat).map fun v =>
    { s.busWrite v s.stopFlag with count := s.count + 1 }.emit (.wait (settleUs s.par s.idx.toNat))

theorem writeByte_eq_bind (fuel : Nat) (s : State) :
    writeByte fuel s = (untilReady fuel s).bind State.wrote := by
  rw [writeByte]
  cases untilReady fuel s with
  | none => rfl
  | some t =>
    change _ = t.wrote
    rw [State.wrote]
    cases hv : t.frame.get? t.idx.toNat <;> simp [hv]

theorem fuelMono_writeByte (s : State) : FuelMono (writeByte · s) := by
  simp only [writeByte_eq_bind]
  exact (untilReady_pollLoop.fuelMono s).bind fun a => fuelMono_const a.wrote

theorem yields_writeByte {s w : State} :
    Yields (writeByte · s) w ↔ ∃ u, Yields (untilReady · s) u ∧ u.wrote = some w := by
  simp only [writeByte_eq_bind]
  rw [yields_bind (untilReady_pollLoop.fuelMono s) fun a => fuelMono_const a.wrote]
  simp only [yields_const]

/-- In WR and SETTLE the table writes as the procedure does. -/
theorem reaches_wr_iff {s t : State} (h : Unreset s) :
    Reaches (s.inPhase .wr) t ↔ ∃ w, s.wrote = some w ∧ Reaches (w.inPhase .chk) t := by
  cases hv : s.frame.get? s.idx.toNat with
  | none =>
    have hfault : step (s.inPhase .wr) = .fault .noSuchSnapshot := by
      refine (step_inPhase h .wr).trans ?_
      change phaseWr (s.inPhase .wr) = _
      rw [phaseWr, show (s.inPhase .wr).frame.get? (s.inPhase .wr).idx.toNat = none from hv]
    simp [not_reaches_of_fault rfl hfault, State.wrote, hv]
  | some v =>
    have hwrite : step (s.inPhase .wr) =
        .next ({ s.busWrite v s.stopFlag with count := s.count + 1 }.inPhase .settle) :=
      (step_inPhase h .wr).trans (phaseWr_of_get? (s := s.inPhase .wr) hv)
    have hsettle := step_inPhase
      (s := { s.busWrite v s.stopFlag with count := s.count + 1 }) ⟨h.wf, h.rst⟩ .settle
    rw [reaches_of_next rfl hwrite, reaches_of_next rfl (hsettle.trans rfl), State.wrote, hv]
    simp only [Option.map_some, Option.some_inj, exists_eq_left']
    rfl

/-! ## The end of a command -/

/-- CHKF: the sample after the drain and the close. -/
def State.closed (s : State) : State :=
  if s.abortAnswer = Config.abortNone then
    { s.pollAbort.respond .ok s.len Config.abortNone with ph := .idle }
  else s.pollAbort.raiseBusAbort s.abortAnswer

theorem reaches_chkF_iff {s t : State} (h : Unreset s) :
    Reaches (s.inPhase .chkF) t ↔ s.closed = t := by
  have hstep : step (s.inPhase .chkF) = .next s.closed := by
    refine (step_inPhase h .chkF).trans ?_
    rw [State.closed]
    by_cases ha : s.abortAnswer = Config.abortNone
    · rw [if_pos ha]
      exact phaseChkF_of_clean (s := s.inPhase .chkF) ha
    · rw [if_neg ha]
      exact phaseChkF_of_abort (s := s.inPhase .chkF) ha
  have hready : s.closed.ph.ready = true := by
    rw [State.closed]
    split <;> rfl
  rw [reaches_of_next rfl hstep, reaches_of_ready hready]

/-- The drain of the procedure, with the close after it. -/
def drain (fuel : Nat) (s : State) : Option State :=
  (untilQEmpty fuel s).bind fun t => (untilBusIdle fuel t).bind fun u => some u.closed

theorem fuelMono_drainBus (t : State) :
    FuelMono fun n => (untilBusIdle n t).bind fun u => some u.closed :=
  (untilBusIdle_pollLoop.fuelMono t).bind fun u => fuelMono_const (some u.closed)

theorem fuelMono_drain (s : State) : FuelMono (drain · s) :=
  (untilQEmpty_pollLoop.fuelMono s).bind fuelMono_drainBus

/-- From DRAINQ the table drains and closes as the procedure does. -/
theorem reaches_drainQ_iff {s t : State} (h : Unreset s) :
    Reaches (s.inPhase .drainQ) t ↔ Yields (drain · s) t := by
  have hbus (u : State) (hu : Yields (untilQEmpty · s) u) : Reaches (u.inPhase .drainB) t ↔
      Yields (fun n => (untilBusIdle n u).bind fun w => some w.closed) t := by
    have hfree : Unreset u := untilQEmpty_pollLoop.unreset_of_yields h hu
    rw [untilBusIdle_pollLoop.reaches_iff hfree, yields_bind (untilBusIdle_pollLoop.fuelMono u)
      fun w => fuelMono_const (some w.closed)]
    refine exists_congr fun w => and_congr_right fun hw => ?_
    rw [reaches_chkF_iff (untilBusIdle_pollLoop.unreset_of_yields hfree hw),
      yields_const, Option.some_inj]
  rw [untilQEmpty_pollLoop.reaches_iff h]
  exact (exists_congr fun u => and_congr_right fun hu => hbus u hu).trans
    (yields_bind (untilQEmpty_pollLoop.fuelMono s) fuelMono_drainBus).symm

theorem finish_of_open {s : State} (hm : s.more = true) (fuel : Nat) :
    finish fuel s = some { s.respond .ok s.len Config.abortNone with ph := .held } := if_pos hm

theorem finish_of_closed {s : State} (hm : s.more = false) (fuel : Nat) :
    finish fuel s = drain fuel s := by
  rw [finish, if_neg (Bool.eq_false_iff.1 hm), drain]
  cases untilQEmpty fuel s with
  | none => rfl
  | some t =>
    change _ = (untilBusIdle fuel t).bind _
    cases hu : untilBusIdle fuel t with
    | none => simp [hu]
    | some u =>
      simp only [hu, Option.bind_some, State.closed]
      split <;> rfl

theorem fuelMono_finish (s : State) : FuelMono (finish · s) := by
  cases hm : s.more with
  | true => simpa only [finish_of_open hm] using fuelMono_const _
  | false => simpa only [finish_of_closed hm] using fuelMono_drain s

/-! ## The byte loop and what follows it -/

/-- What follows the byte loop, unless it ended in the abort exit. -/
def afterLoop (fuel : Nat) : State × Bool → Option State
  | (t, true) => some t
  | (t, false) => finish fuel t

theorem fuelMono_afterLoop (r : State × Bool) : FuelMono (afterLoop · r) := by
  obtain ⟨t, _ | _⟩ := r
  · exact fuelMono_finish t
  · exact fuelMono_const (some t)

/-- The byte loop after the wait of a snapshot: its sample, then the snapshots left. -/
def afterWait (fuel n : Nat) (s : State) : Option (State × Bool) :=
  if s.abortAnswer = Config.abortNone then
    byteLoop fuel n { s.pollAbort with idx := s.idx + 1 }
  else some (s.pollAbort.raiseBusAbort s.abortAnswer, true)

theorem byteLoop_of_lt {s : State} (h : s.idx.toNat < s.len.toNat) (fuel n : Nat) :
    byteLoop fuel (n + 1) s = (writeByte fuel s).bind (afterWait fuel n) := by
  rw [byteLoop, if_pos h]
  cases writeByte fuel s <;> rfl

theorem byteLoop_of_end {s : State} (h : ¬ s.idx.toNat < s.len.toNat) (fuel n : Nat) :
    byteLoop fuel n s = some (s, false) := by
  cases n with
  | zero => rfl
  | succ n => exact if_neg h

theorem fuelMono_byteLoop (n : Nat) (s : State) : FuelMono (byteLoop · n s) := by
  induction n generalizing s with
  | zero => exact fuelMono_const (some (s, false))
  | succ n ih =>
    by_cases hlt : s.idx.toNat < s.len.toNat
    · simp only [byteLoop_of_lt hlt]
      refine (fuelMono_writeByte s).bind fun w => ?_
      by_cases ha : w.abortAnswer = Config.abortNone
      · simpa only [afterWait, if_pos ha] using ih _
      · simpa only [afterWait, if_neg ha] using fuelMono_const _
    · simpa only [byteLoop_of_end hlt] using fuelMono_const _

/-- The byte loop of at most `n` snapshots, and what follows it. -/
def bytesThenEnd (n : Nat) (s : State) (fuel : Nat) : Option State :=
  (byteLoop fuel n s).bind (afterLoop fuel)

theorem fuelMono_bytesThenEnd (n : Nat) (s : State) : FuelMono (bytesThenEnd n s) :=
  (fuelMono_byteLoop n s).bind fuelMono_afterLoop

theorem yields_bytesThenEnd_of_end {s t : State} (h : ¬ s.idx.toNat < s.len.toNat) (n : Nat) :
    Yields (bytesThenEnd n s) t ↔ Yields (finish · s) t := by
  simp only [Yields, bytesThenEnd, byteLoop_of_end h]
  rfl

/-- After the wait of a snapshot: the sample, the snapshots left, and the end. -/
def sampleThenEnd (n : Nat) (s : State) (fuel : Nat) : Option State :=
  (afterWait fuel n s).bind (afterLoop fuel)

theorem sampleThenEnd_of_clean {s : State} (h : s.abortAnswer = Config.abortNone) (n : Nat) :
    sampleThenEnd n s = bytesThenEnd n { s.pollAbort with idx := s.idx + 1 } := by
  funext fuel
  rw [sampleThenEnd, afterWait, if_pos h]
  rfl

theorem sampleThenEnd_of_abort {s : State} (h : s.abortAnswer ≠ Config.abortNone) (n : Nat) :
    sampleThenEnd n s = fun _ => some (s.pollAbort.raiseBusAbort s.abortAnswer) := by
  funext fuel
  rw [sampleThenEnd, afterWait, if_neg h]
  rfl

theorem fuelMono_sampleThenEnd (n : Nat) (s : State) : FuelMono (sampleThenEnd n s) := by
  by_cases h : s.abortAnswer = Config.abortNone
  · simpa only [sampleThenEnd_of_clean h] using fuelMono_bytesThenEnd n _
  · simpa only [sampleThenEnd_of_abort h] using fuelMono_const _

theorem yields_bytesThenEnd_of_lt {s t : State} (h : s.idx.toNat < s.len.toNat) (n : Nat) :
    Yields (bytesThenEnd (n + 1) s) t ↔
      ∃ w, Yields (writeByte · s) w ∧ Yields (sampleThenEnd n w) t := by
  rw [← yields_bind (fuelMono_writeByte s) (g := fun fuel w => sampleThenEnd n w fuel)
    (fuelMono_sampleThenEnd n)]
  simp only [Yields, bytesThenEnd, byteLoop_of_lt h, Option.bind_assoc]
  rfl

/-- From RDY through the wait of a snapshot. -/
theorem reaches_rdy_iff_writeByte {s t : State} (h : Unreset s) :
    Reaches (s.inPhase .rdy) t ↔ ∃ w, Yields (writeByte · s) w ∧ Reaches (w.inPhase .chk) t := by
  have hwr (u : State) (hu : Yields (untilReady · s) u) :=
    reaches_wr_iff (t := t) (untilReady_pollLoop.unreset_of_yields h hu)
  rw [untilReady_pollLoop.reaches_iff h]
  simp only [yields_writeByte]
  constructor
  · rintro ⟨u, hu, ht⟩
    obtain ⟨w, hw, ht⟩ := (hwr u hu).1 ht
    exact ⟨w, ⟨u, hu, hw⟩, ht⟩
  · rintro ⟨w, ⟨u, hu, hw⟩, ht⟩
    exact ⟨u, hu, (hwr u hu).2 ⟨w, hw, ht⟩⟩

/-- `u` stands at the same snapshot of the same command as `s`, without reset. -/
structure SameSnapshot (s u : State) : Prop where
  unreset : Unreset u
  idx : u.idx = s.idx
  len : u.len = s.len

theorem sameSnapshot_of_writeByte {s w : State} (h : Unreset s) (hw : Yields (writeByte · s) w) :
    SameSnapshot s w := by
  obtain ⟨u, hu, hwrote⟩ := yields_writeByte.1 hw
  have hu : SameSnapshot s u := untilReady_pollLoop.keeps (P := SameSnapshot s)
    (fun k => ⟨⟨k.unreset.wf, k.unreset.rst⟩, k.idx, k.len⟩) ⟨h, rfl, rfl⟩ hu
  obtain ⟨v, -, rfl⟩ := Option.map_eq_some_iff.1 hwrote
  exact ⟨⟨hu.unreset.wf, hu.unreset.rst⟩, hu.idx, hu.len⟩

/-- In CHK with a clean sample: the next snapshot, or the end. -/
theorem reaches_chk_of_clean_iff {s t : State} {n : Nat} (h : Unreset s)
    (ha : s.abortAnswer = Config.abortNone) (hlt : s.idx.toNat < s.len.toNat)
    (hnext : s.idx.toNat + 1 < s.len.toNat →
      (Reaches ({ s.pollAbort with idx := s.idx + 1 }.inPhase .rdy) t ↔
        Yields (bytesThenEnd n { s.pollAbort with idx := s.idx + 1 }) t)) :
    Reaches (s.inPhase .chk) t ↔
      Yields (bytesThenEnd n { s.pollAbort with idx := s.idx + 1 }) t := by
  have hstep : step (s.inPhase .chk) = chkClean (s.pollAbort.inPhase .chk) :=
    (step_inPhase h .chk).trans (phaseChk_of_clean (s := s.inPhase .chk) ha)
  by_cases hlast : s.idx.toNat + 1 < s.len.toNat
  · rw [← hnext hlast]
    exact reaches_of_next rfl (hstep.trans (chkClean_of_lt hlast))
  · have hend : s.idx.toNat + 1 = s.len.toNat := by omega
    have hidx : (s.idx + 1).toNat = s.idx.toNat + 1 := by bv_omega
    rw [yields_bytesThenEnd_of_end (by simp only [hidx]; exact hlast)]
    cases hm : s.more with
    | true =>
      rw [reaches_of_next rfl (hstep.trans (chkClean_of_last_open hend hm)), reaches_of_ready rfl]
      simp only [finish_of_open (s := { s.pollAbort with idx := s.idx + 1 }) hm, yields_const,
        Option.some_inj]
      rfl
    | false =>
      rw [reaches_of_next rfl (hstep.trans (chkClean_of_last_closed hend hm))]
      simp only [finish_of_closed (s := { s.pollAbort with idx := s.idx + 1 }) hm]
      exact reaches_drainQ_iff (s := { s.pollAbort with idx := s.idx + 1 }) ⟨h.wf, h.rst⟩

/-- From RDY, with fuel for the snapshots left. -/
theorem reaches_rdy_iff {s t : State} {n : Nat} (h : Unreset s) (hlt : s.idx.toNat < s.len.toNat)
    (hn : s.len.toNat ≤ s.idx.toNat + n) :
    Reaches (s.inPhase .rdy) t ↔ Yields (bytesThenEnd n s) t := by
  induction n generalizing s with
  | zero => omega
  | succ n ih =>
    rw [reaches_rdy_iff_writeByte h, yields_bytesThenEnd_of_lt hlt]
    refine exists_congr fun w => and_congr_right fun hw => ?_
    obtain ⟨hfree, hidx, hlen⟩ := sameSnapshot_of_writeByte h hw
    rw [← hidx, ← hlen] at hlt hn
    by_cases ha : w.abortAnswer = Config.abortNone
    · rw [sampleThenEnd_of_clean ha]
      refine reaches_chk_of_clean_iff hfree ha hlt fun hnext => ih ⟨hfree.wf, hfree.rst⟩ ?_ ?_
      · change (w.idx + 1).toNat < w.len.toNat
        bv_omega
      · change w.len.toNat ≤ (w.idx + 1).toNat + n
        bv_omega
    · have hstep := (step_inPhase hfree .chk).trans (phaseChk_of_abort (s := w.inPhase .chk) ha)
      rw [sampleThenEnd_of_abort ha, yields_const, Option.some_inj,
        reaches_of_next rfl hstep, reaches_of_ready rfl]
      rfl

/-! ## The whole procedure -/

theorem transfer_continuing (fuel : Nat) (s : State) :
    transfer fuel false s = bytesThenEnd s.len.toNat s fuel := by
  simp only [transfer, Bool.false_eq_true, if_false, bytesThenEnd]
  rcases byteLoop fuel s.len.toNat s with _ | ⟨t, _ | _⟩ <;> rfl

/-- A command that opens its frame is the prologue and then as one that continues. -/
theorem transfer_opening (fuel : Nat) (s : State) :
    transfer fuel true s =
      transfer fuel false (s.emitAll (prologueEvents s.par s.targetAddr)) := rfl

theorem yields_transfer_iff {s t : State} (h : Unreset s) (hlt : s.idx.toNat < s.len.toNat) :
    Yields (transfer · false s) t ↔ Reaches (s.inPhase .rdy) t := by
  simp only [transfer_continuing]
  exact (reaches_rdy_iff h hlt (Nat.le_add_left ..)).symm

theorem inPhase_of_ph {s : State} {p : Phase} (h : s.ph = p) : s.inPhase p = s := by
  rw [State.inPhase, ← h]

/-- Settles O47: from RDY by the snapshots left, and from ADDR after its one step. -/
theorem procedureAgreesWithTable : Obligations.ProcedureAgreesWithTable := by
  unfold Obligations.ProcedureAgreesWithTable
  intro s t hw hrst hp hlt
  have h : Unreset s := ⟨hw, hrst⟩
  change Yields (transfer · (s.ph = .addr) s) t ↔ Reaches s t
  rcases hp with hp | hp
  · have hstep : step (s.inPhase .addr) =
        .next ((s.emitAll (prologueEvents s.par s.targetAddr)).inPhase .rdy) :=
      step_inPhase h .addr
    have htable := reaches_of_next (t := t) rfl hstep
    rw [inPhase_of_ph hp] at htable
    simp only [hp, decide_true, transfer_opening]
    rw [htable]
    exact yields_transfer_iff (s := s.emitAll (prologueEvents s.par s.targetAddr)) ⟨hw, hrst⟩ hlt
  · have hcontinues : decide (s.ph = .addr) = false := by simp [hp]
    have hloop := yields_transfer_iff (t := t) h hlt
    rw [inPhase_of_ph hp] at hloop
    simpa only [hcontinues] using hloop

end Sys2Proof.Machine
end
